-- ==== Sys2Proof/Word.lean ====
section
/-! DEFINITION. The words of LZSEQ: data words, bytes and event words. Plain widths only; every helper that cuts or
joins fields stands in Decode.lean or Machine/Ops.lean. -/

namespace Sys2Proof

/-- A 16-bit word: a sample, a dispatch-table word, a reply word, a handler address, a byte address
(SAMPLE_W = WORD_W = ADDR_W = 16; 00_scope R9, 20_memory R51). -/
abbrev Word := BitVec 16

/-- One byte of data memory (20_memory R50). -/
abbrev Byte := BitVec 8

/-- One event word, format E32 (30_encoding R70). -/
abbrev EventWord := BitVec 32

end Sys2Proof
end

