-- ==== Sys2Proof/Syntax.lean ====
section
/-! DEFINITION. The operations of LZSEQ (30_encoding R72): one constructor per row of spec/opcode_table.json, with the
enumerations their operands range over, the names of the fault and refusal reasons, and the pseudo-operations. -/

namespace Sys2Proof

/-- ChannelSelector (30_encoding R75). -/
inductive Channel where
  | adc0
  | internalTemperature
  | thermistorAdc2
  | referenceAdc1
deriving DecidableEq, Repr, Inhabited

/-- A slot of the two-slot samples buffer (10_state R23). -/
inductive Slot where
  | slot0
  | slot1
deriving DecidableEq, Repr, Inhabited

/-- What an interrupt frame records as its cause (10_state R42). Only `overflow` and `complete` are causes of the
converter interrupt (30_encoding R77). -/
inductive Cause where
  | overflow
  | complete
  | rf
deriving DecidableEq, Repr, Inhabited

/-- Fault reasons (30_encoding R78, 60_exceptions R206). They are values of the sticky fault mark, which is state. -/
inductive FaultReason where
  | converterBusy
  | secondCycle
  | unwrittenSample
  | illegalState
  | idleCompletion
deriving DecidableEq, Repr, Inhabited

/-- Refusal reasons (30_encoding R78, 60_exceptions R208). They are values of the sticky refusal mark, which is state. -/
inductive RefusalReason where
  | badOperation
  | wrongContext
  | illFormedTable
  | unknownHandler
  | tableWrite
  | misaligned
  | overlap
  | mixedWidth
  | addressWrap
deriving DecidableEq, Repr, Inhabited

/-- Why a word names no operation (30_encoding R71, R73, R82). The machine answers each with `badOperation`. -/
inductive DecodeError where
  /-- The `op` field is not in the operation map (R82). -/
  | reservedOp
  /-- A bit the operation does not use is not 0 (R71). -/
  | nonzeroUnused
  /-- The cause code of CONV_IRQ_ENTRY is 0 or 3 (R73). -/
  | reservedCode
deriving DecidableEq, Repr, Inhabited

/-- The operations (30_encoding R72). -/
inductive Instr where
  /-- REQ_CYCLE: the main flow requests a cycle (R131). -/
  | reqCycle
  /-- SLEEP: the main flow enters low-power sleep (R132). -/
  | sleep
  /-- ENABLE_INT: interrupts are globally enabled (R143). -/
  | enableInt
  /-- CALIBRATE: a documented no-op (R139). -/
  | calibrate
  /-- READ_SAMPLE: the main flow reads a buffer slot (R140). -/
  | readSample (i : Slot)
  /-- REQ_FINISH: the second half of a split REQ_CYCLE (R142). -/
  | reqFinish
  /-- END: the main program's end (R141). -/
  | endMain
  /-- CFG_START: configure_and_start (R102). -/
  | cfgStart (ch : Channel)
  /-- CONV_DISABLE: disable the converter (R103). -/
  | convDisable
  /-- RESULT_READ: read the conversion result; `d` is what a read in flight returns (R104). -/
  | resultRead (d : Word)
  /-- OV_CLEAR: clear the overflow flag only (R105). -/
  | ovClear
  /-- CONV_DONE: the conversion completes with value `v` (R107). -/
  | convDone (v : Word)
  /-- CONV_OVF_END: the conversion ends in overflow (R108). -/
  | convOvfEnd
  /-- CONV_OVF: an overflow flagged without ending a conversion (R109). -/
  | convOvf
  /-- CONV_IRQ_ENTRY: the converter interrupt is taken for cause `c` (R212). -/
  | convIrqEntry (c : Cause)
  /-- ISR_COMPLETE: the handler's completion arms; `d` is what a read in flight returns (R133). -/
  | isrComplete (d : Word)
  /-- ISR_OVERFLOW: the handler's overflow arm (R137). -/
  | isrOverflow
  /-- RETI: return from the converter interrupt (R213). -/
  | reti
  /-- WAKE: clear the saved low-power bit (R138). -/
  | wake
  /-- RF_FRAME: the reader delivers a custom-command frame (R161). -/
  | rfFrame (id : Word)
  /-- RF_IRQ_ENTRY: the RF interrupt is taken (R162). -/
  | rfIrqEntry
  /-- DT_LOOKUP: the stack searches the dispatch table (R163). -/
  | dtLookup
  /-- DT_INVOKE: the stack invokes the handler (R164). -/
  | dtInvoke
  /-- CUSTOM_START: the custom handler starts its conversion (R165). -/
  | customStart
  /-- CUSTOM_FINISH: the custom handler reads and replies; `d` is what a read in flight returns (R167). -/
  | customFinish (d : Word)
  /-- REPLY_WRITE: the two reply words are written (R166). -/
  | replyWrite (v : Word)
  /-- RF_RETURN: the stack returns from the RF interrupt; `w` clears the saved low-power bit (R168). -/
  | rfReturn (w : Bool)
  /-- RESET (R240). -/
  | reset
deriving DecidableEq, Repr, Inhabited

/-- Who performs a step (00_scope R13); `software` stands for whichever software context runs (30_encoding R72). -/
inductive Agent where
  | main
  | convISR
  | converter
  | rfStack
  | host
  | software
deriving DecidableEq, Repr, Inhabited

/-- Pseudo-operations (30_encoding R86), each expanded before the model runs. -/
inductive Pseudo where
  | measure
  | customCmd (id : Word)
  | service (c : Cause)
deriving DecidableEq, Repr, Inhabited

end Sys2Proof
end

