-- ==== Sys2Proof/WellFormed.lean ====
section
/-! DEFINITION. Which terms of `Instr` name an operation. The operand types already rule out every other bad operand
(a channel, a slot, a wake bit and a 16-bit value have no illegal value), so one check is left. -/

namespace Sys2Proof

/-- A cause CONV_IRQ_ENTRY can name: code 1 or 2 (30_encoding R73, R77). The RF cause has its own entry operation. -/
def Cause.isConverter : Cause → Bool
  | .overflow => true
  | .complete => true
  | .rf => false

/-- The term names an operation of 30_encoding R72 with operands R73 admits. -/
def Instr.wellFormed : Instr → Bool
  | .convIrqEntry c => c.isConverter
  | .reqCycle => true
  | .sleep => true
  | .enableInt => true
  | .calibrate => true
  | .readSample _ => true
  | .reqFinish => true
  | .endMain => true
  | .cfgStart _ => true
  | .convDisable => true
  | .resultRead _ => true
  | .ovClear => true
  | .convDone _ => true
  | .convOvfEnd => true
  | .convOvf => true
  | .isrComplete _ => true
  | .isrOverflow => true
  | .reti => true
  | .wake => true
  | .rfFrame _ => true
  | .rfIrqEntry => true
  | .dtLookup => true
  | .dtInvoke => true
  | .customStart => true
  | .customFinish _ => true
  | .replyWrite _ => true
  | .rfReturn _ => true
  | .reset => true

end Sys2Proof
end

