-- ==== Sys2Proof/Decode.lean ====
section
/-! DEFINITION. Event words to operations and back (30_encoding R70 to R77, R82). Decoding is total: a word is an
operation or is rejected by name. The encoder follows it, written from the same tables. -/

namespace Sys2Proof

/-- `op = w[31:24]` (30_encoding R71). -/
def opField (w : EventWord) : BitVec 8 := w.extractLsb' 24 8

/-- `sel = w[23:16]` (30_encoding R71). -/
def selField (w : EventWord) : BitVec 8 := w.extractLsb' 16 8

/-- `data = w[15:0]` (30_encoding R71). -/
def dataField (w : EventWord) : Word := w.extractLsb' 0 16

/-- `op ++ sel ++ data` (30_encoding R70). -/
def eventWord (op sel : BitVec 8) (data : Word) : EventWord := op ++ sel ++ data

/-- ChannelSelector codes (30_encoding R75). -/
def Channel.code : Channel → BitVec 8
  | .adc0 => 0
  | .internalTemperature => 1
  | .thermistorAdc2 => 2
  | .referenceAdc1 => 3

/-- Slot indices (30_encoding R73). -/
def Slot.code : Slot → BitVec 8
  | .slot0 => 0
  | .slot1 => 1

/-- Interrupt cause codes (30_encoding R77); code 0 is "none", which the RF cause has here because it has no code. -/
def Cause.code : Cause → BitVec 8
  | .overflow => 1
  | .complete => 2
  | .rf => 0

/-- The wake bit of RF_RETURN (30_encoding R73). -/
def wakeCode : Bool → BitVec 8
  | false => 0
  | true => 1

/-- An operation that uses neither `sel` nor `data` (30_encoding R71). -/
def decodeBare (i : Instr) (sel : BitVec 8) (data : Word) : Except DecodeError Instr :=
  if sel = 0 ∧ data = 0 then .ok i else .error .nonzeroUnused

/-- An operation that uses `data` only (30_encoding R71, R74). -/
def decodeData (f : Word → Instr) (sel : BitVec 8) (data : Word) : Except DecodeError Instr :=
  if sel = 0 then .ok (f data) else .error .nonzeroUnused

/-- CFG_START: `sel[1:0]` is the channel, `sel[7:2]` and `data` are 0 (30_encoding R73, R75). -/
def decodeChannel (f : Channel → Instr) (sel : BitVec 8) (data : Word) : Except DecodeError Instr :=
  if data = 0 then
    match sel with
    | 0#8 => .ok (f .adc0)
    | 1#8 => .ok (f .internalTemperature)
    | 2#8 => .ok (f .thermistorAdc2)
    | 3#8 => .ok (f .referenceAdc1)
    | _ => .error .nonzeroUnused
  else .error .nonzeroUnused

/-- READ_SAMPLE: `sel[0]` is the slot, `sel[7:1]` and `data` are 0 (30_encoding R73). -/
def decodeSlot (f : Slot → Instr) (sel : BitVec 8) (data : Word) : Except DecodeError Instr :=
  if data = 0 then
    match sel with
    | 0#8 => .ok (f .slot0)
    | 1#8 => .ok (f .slot1)
    | _ => .error .nonzeroUnused
  else .error .nonzeroUnused

/-- CONV_IRQ_ENTRY: `sel[1:0]` is the cause, 1 or 2; codes 0 and 3 are reserved; `sel[7:2]` and `data` are 0
(30_encoding R73, R77). -/
def decodeCause (f : Cause → Instr) (sel : BitVec 8) (data : Word) : Except DecodeError Instr :=
  if data = 0 then
    match sel with
    | 0#8 => .error .reservedCode
    | 1#8 => .ok (f .overflow)
    | 2#8 => .ok (f .complete)
    | 3#8 => .error .reservedCode
    | _ => .error .nonzeroUnused
  else .error .nonzeroUnused

/-- RF_RETURN: `sel[0]` is the wake bit, `sel[7:1]` and `data` are 0 (30_encoding R73). -/
def decodeWake (f : Bool → Instr) (sel : BitVec 8) (data : Word) : Except DecodeError Instr :=
  if data = 0 then
    match sel with
    | 0#8 => .ok (f false)
    | 1#8 => .ok (f true)
    | _ => .error .nonzeroUnused
  else .error .nonzeroUnused

/-- The operation map (30_encoding R72), applied to the three fields of a word. -/
def decodeFields (op sel : BitVec 8) (data : Word) : Except DecodeError Instr :=
  match op with
  | 0x01#8 => decodeBare .reqCycle sel data
  | 0x02#8 => decodeBare .sleep sel data
  | 0x03#8 => decodeBare .enableInt sel data
  | 0x04#8 => decodeBare .calibrate sel data
  | 0x05#8 => decodeSlot .readSample sel data
  | 0x06#8 => decodeBare .reqFinish sel data
  | 0x0F#8 => decodeBare .endMain sel data
  | 0x10#8 => decodeChannel .cfgStart sel data
  | 0x11#8 => decodeBare .convDisable sel data
  | 0x12#8 => decodeData .resultRead sel data
  | 0x13#8 => decodeBare .ovClear sel data
  | 0x20#8 => decodeData .convDone sel data
  | 0x21#8 => decodeBare .convOvfEnd sel data
  | 0x22#8 => decodeBare .convOvf sel data
  | 0x30#8 => decodeCause .convIrqEntry sel data
  | 0x31#8 => decodeData .isrComplete sel data
  | 0x32#8 => decodeBare .isrOverflow sel data
  | 0x33#8 => decodeBare .reti sel data
  | 0x34#8 => decodeBare .wake sel data
  | 0x40#8 => decodeData .rfFrame sel data
  | 0x41#8 => decodeBare .rfIrqEntry sel data
  | 0x42#8 => decodeBare .dtLookup sel data
  | 0x43#8 => decodeBare .dtInvoke sel data
  | 0x44#8 => decodeBare .customStart sel data
  | 0x45#8 => decodeData .customFinish sel data
  | 0x46#8 => decodeData .replyWrite sel data
  | 0x47#8 => decodeWake .rfReturn sel data
  | 0xFF#8 => decodeBare .reset sel data
  | _ => .error .reservedOp

/-- What an event word names (30_encoding R71, R72, R82). -/
def decode (w : EventWord) : Except DecodeError Instr :=
  decodeFields (opField w) (selField w) (dataField w)

/-- The operation code of an operation (30_encoding R72). -/
def Instr.op : Instr → BitVec 8
  | .reqCycle => 0x01
  | .sleep => 0x02
  | .enableInt => 0x03
  | .calibrate => 0x04
  | .readSample _ => 0x05
  | .reqFinish => 0x06
  | .endMain => 0x0F
  | .cfgStart _ => 0x10
  | .convDisable => 0x11
  | .resultRead _ => 0x12
  | .ovClear => 0x13
  | .convDone _ => 0x20
  | .convOvfEnd => 0x21
  | .convOvf => 0x22
  | .convIrqEntry _ => 0x30
  | .isrComplete _ => 0x31
  | .isrOverflow => 0x32
  | .reti => 0x33
  | .wake => 0x34
  | .rfFrame _ => 0x40
  | .rfIrqEntry => 0x41
  | .dtLookup => 0x42
  | .dtInvoke => 0x43
  | .customStart => 0x44
  | .customFinish _ => 0x45
  | .replyWrite _ => 0x46
  | .rfReturn _ => 0x47
  | .reset => 0xFF

/-- The `sel` operand of an operation, 0 where it has none (30_encoding R73). -/
def Instr.sel : Instr → BitVec 8
  | .readSample i => i.code
  | .cfgStart ch => ch.code
  | .convIrqEntry c => c.code
  | .rfReturn w => wakeCode w
  | .resultRead _ => 0
  | .convDone _ => 0
  | .isrComplete _ => 0
  | .rfFrame _ => 0
  | .customFinish _ => 0
  | .replyWrite _ => 0
  | .reqCycle => 0
  | .sleep => 0
  | .enableInt => 0
  | .calibrate => 0
  | .reqFinish => 0
  | .endMain => 0
  | .convDisable => 0
  | .ovClear => 0
  | .convOvfEnd => 0
  | .convOvf => 0
  | .isrOverflow => 0
  | .reti => 0
  | .wake => 0
  | .rfIrqEntry => 0
  | .dtLookup => 0
  | .dtInvoke => 0
  | .customStart => 0
  | .reset => 0

/-- The `data` operand of an operation, 0 where it has none (30_encoding R74). -/
def Instr.data : Instr → Word
  | .resultRead d => d
  | .convDone v => v
  | .isrComplete d => d
  | .rfFrame id => id
  | .customFinish d => d
  | .replyWrite v => v
  | .readSample _ => 0
  | .cfgStart _ => 0
  | .convIrqEntry _ => 0
  | .rfReturn _ => 0
  | .reqCycle => 0
  | .sleep => 0
  | .enableInt => 0
  | .calibrate => 0
  | .reqFinish => 0
  | .endMain => 0
  | .convDisable => 0
  | .ovClear => 0
  | .convOvfEnd => 0
  | .convOvf => 0
  | .isrOverflow => 0
  | .reti => 0
  | .wake => 0
  | .rfIrqEntry => 0
  | .dtLookup => 0
  | .dtInvoke => 0
  | .customStart => 0
  | .reset => 0

/-- The event word of an operation (30_encoding R70 to R74). -/
def encode (i : Instr) : EventWord := eventWord i.op i.sel i.data

/-- The operation the decoder reads from a word numbered as spec/opcode_table.json numbers it: bit 0 is the least
significant bit of the one 32-bit word. Bits above `nbits` are 0; a table row longer than 32 bits does not exist (R84). -/
def decodeTableWord (nbits w : Nat) : Option Instr :=
  if nbits ≤ 32 then
    match decode (BitVec.ofNat 32 (w % 2 ^ nbits)) with
    | .ok i => some i
    | .error _ => none
  else none

/-- Who performs an operation (30_encoding R72, column "agent"). -/
def Instr.agent : Instr → Agent
  | .reqCycle => .main
  | .sleep => .main
  | .enableInt => .main
  | .calibrate => .main
  | .readSample _ => .main
  | .reqFinish => .main
  | .endMain => .main
  | .cfgStart _ => .software
  | .convDisable => .software
  | .resultRead _ => .software
  | .ovClear => .software
  | .convDone _ => .converter
  | .convOvfEnd => .converter
  | .convOvf => .converter
  | .convIrqEntry _ => .convISR
  | .isrComplete _ => .convISR
  | .isrOverflow => .convISR
  | .reti => .convISR
  | .wake => .convISR
  | .rfFrame _ => .host
  | .rfIrqEntry => .rfStack
  | .dtLookup => .rfStack
  | .dtInvoke => .rfStack
  | .customStart => .rfStack
  | .customFinish _ => .rfStack
  | .replyWrite _ => .rfStack
  | .rfReturn _ => .rfStack
  | .reset => .host

/-- Expansion of a pseudo-operation (30_encoding R86). SERVICE of a cause that is not the converter's has no expansion. -/
def Pseudo.expand : Pseudo → List Instr
  | .measure => [.reqCycle, .sleep]
  | .customCmd id =>
    [.rfFrame id, .rfIrqEntry, .dtLookup, .dtInvoke, .customStart, .customFinish 0, .rfReturn false]
  | .service .complete => [.convIrqEntry .complete, .isrComplete 0, .reti]
  | .service .overflow => [.convIrqEntry .overflow, .isrOverflow, .reti]
  | .service .rf => []

end Sys2Proof
end

