-- ==== Sys2Proof/Config.lean ====
section
/-! DEFINITION. The implementation parameters of 00_scope R9, the dispatch table image (10_state R47), and the free
values: what 00_scope R12 calls `draw`. A free value is an opaque function of the draw counter that State holds, so
nothing can be proved about which value a draw gives. -/

namespace Sys2Proof

/-- `BYTE_ORDER` (20_memory R52). -/
inductive ByteOrder where
  | little
  | big
deriving DecidableEq, Repr, Inhabited

/-- `CFG_FLAG_POLICY` (40_converter_control R102, decision D13). -/
inductive FlagPolicy where
  | keep
  | clear
  | either
deriving DecidableEq, Repr, Inhabited

/-- `IDLE_COMPLETION` (41_sampling_sequencer R136, decision D18). -/
inductive IdleCompletion where
  | discard
  | fault
deriving DecidableEq, Repr, Inhabited

/-- The order of the start and the state write in one request (41_sampling_sequencer R131). -/
inductive RequestOrder where
  | atomic
  | stateFirst
  | startFirst
deriving DecidableEq, Repr, Inhabited

/-- `REQ_CYCLE_ORDER`: a fixed order, or one drawn for each request (41_sampling_sequencer R131, decision D19). -/
inductive OrderPolicy where
  | always (o : RequestOrder)
  | any
deriving DecidableEq, Repr, Inhabited

/-- `INCH`: the physical input code of each ChannelSelector (30_encoding R75), as plain data. -/
structure InputCodes where
  adc0 : Nat
  internalTemperature : Nat
  thermistorAdc2 : Nat
  referenceAdc1 : Nat
deriving DecidableEq, Repr, Inhabited

/-- The parameters of 00_scope R9 and the dispatch table image (10_state R47): fixed before reset, written by no step. -/
structure Config where
  /-- `DT_MAX`: bound on the entries the lookup scans. -/
  dtMax : Nat
  /-- `DT_BASE`: byte address of the table's first word. -/
  dtBase : Word
  /-- `DT_KEY`: start key and end key. -/
  dtKey : Word
  /-- `CMD_ID`: the one configured command identifier. -/
  cmdId : Word
  /-- `HANDLER_ADDR`: address of the custom handler. -/
  handlerAddr : Word
  /-- `DT_IMAGE`: the table's words in order (30_encoding R79). -/
  dtImage : List Word
  /-- `REPLY_BASE`: byte address of the reply buffer. -/
  replyBase : Word
  /-- `REPLY_LEN_WORD`: value written to the reply length field. -/
  replyLenWord : Word
  /-- `CUSTOM_CH`: channel the custom handler samples. -/
  customCh : Channel
  /-- `W_GAIN`: width of the gain field. -/
  wGain : Nat
  /-- `W_FDLY`: width of the filter-delay field. -/
  wFdly : Nat
  /-- `W_CLK`: width of the clock field. -/
  wClk : Nat
  /-- `CFG_GAIN`. -/
  cfgGain : Nat
  /-- `CFG_FDLY`. -/
  cfgFdly : Nat
  /-- `CFG_CLK`. -/
  cfgClk : Nat
  /-- `INCH`. -/
  inch : InputCodes
  /-- `BYTE_ORDER`. -/
  byteOrder : ByteOrder
  /-- `CFG_FLAG_POLICY`. -/
  cfgFlagPolicy : FlagPolicy
  /-- `OVF_SPURIOUS`: overflow may be flagged at any step while the converter is enabled. -/
  ovfSpurious : Bool
  /-- `IDLE_COMPLETION`. -/
  idleCompletion : IdleCompletion
  /-- `REQ_CYCLE_ORDER`. -/
  reqCycleOrder : OrderPolicy
  /-- `RF_ISR_MAY_WAKE`: the ROM's return may clear the saved low-power bit. -/
  rfIsrMayWake : Bool
  /-- `DELAY_SUFFICIENT`: the custom handler's busy-wait always outlasts a conversion. -/
  delaySufficient : Bool
  /-- `BUSY_WAIT_DELAY`: timing only, read by no rule (70_reset_and_hazards R255). -/
  busyWaitDelay : Nat
deriving DecidableEq, Repr, Inhabited

/-- `DT_N`: configured dispatch entries (00_scope R3, R9). -/
abbrev Config.dtN : Nat := 1

/-- Every value lies in the type 00_scope R9 gives it: the field widths are at least 1, the fixed constants fit them,
the table bound is at least 1, and the command identifier is not the key. -/
def Config.fits (c : Config) : Bool :=
  decide (1 ≤ c.wGain) && decide (1 ≤ c.wFdly) && decide (1 ≤ c.wClk) && decide (c.cfgGain < 2 ^ c.wGain) &&
    decide (c.cfgFdly < 2 ^ c.wFdly) && decide (c.cfgClk < 2 ^ c.wClk) && decide (1 ≤ c.dtMax) &&
    decide (c.cmdId ≠ c.dtKey)

/-- With one configured entry the image is exactly these four words (30_encoding R79). -/
def Config.oneEntryImage (c : Config) : List Word := [c.dtKey, c.cmdId, c.handlerAddr, c.dtKey]

/-- The test configuration of 95_test_vectors, with the constants it writes `G`, `F`, `K` and the input codes it leaves
out at fixed values. DESIGN CHOICE (log 5), safe: it is a witness that well-formed configurations exist, never the
machine's configuration as a statement sees it. -/
def Config.testVectors : Config where
  dtMax := 4
  dtBase := 0x0100
  dtKey := 0xCECE
  cmdId := 0x00C0
  handlerAddr := 0x4400
  dtImage := [0xCECE, 0x00C0, 0x4400, 0xCECE]
  replyBase := 0x0200
  replyLenWord := 0x0000
  customCh := .internalTemperature
  wGain := 2
  wFdly := 2
  wClk := 2
  cfgGain := 1
  cfgFdly := 2
  cfgClk := 3
  inch := ⟨0, 1, 2, 3⟩
  byteOrder := .little
  cfgFlagPolicy := .clear
  ovfSpurious := true
  idleCompletion := .discard
  reqCycleOrder := .always .atomic
  rfIsrMayWake := true
  delaySufficient := false
  busyWaitDelay := 0

/-- The `OPEN` parameters of 00_scope R9: nothing is known of them (DESIGN CHOICE, log 5; safe). -/
opaque Config.unknown : Config

/-- Free value (log 4): whether the n-th draw of CFG_FLAG_POLICY = Either clears the flags (40_converter_control R102). -/
opaque Config.freeClear : Nat → Bool

/-- Free value (log 4): the order the n-th draw of REQ_CYCLE_ORDER = Any gives (41_sampling_sequencer R131). -/
opaque Config.freeOrder : Nat → RequestOrder

/-- Free value (logs 4, 6): CONV.CH after the n-th drawn reset (10_state R29). -/
opaque Config.freeChannel : Nat → Channel

/-- Free value (logs 4, 6): CONV.GAIN after the n-th drawn reset, before it is cut to its width (10_state R30). -/
opaque Config.freeGain : Nat → Nat

/-- Free value (logs 4, 6): CONV.FDLY after the n-th drawn reset, before it is cut to its width (10_state R31). -/
opaque Config.freeFdly : Nat → Nat

/-- Free value (logs 4, 6): CONV.CLK after the n-th drawn reset, before it is cut to its width (10_state R32). -/
opaque Config.freeClk : Nat → Nat

/-- Free value (logs 4, 6): CONV.RESULT after the n-th drawn reset (10_state R38). -/
opaque Config.freeResult : Nat → Word

end Sys2Proof
end

