-- ==== Sys2Proof/Machine/Setup.lean ====
section
/-! DEFINITION. The checks a configuration passes before the model runs (30_encoding R80, 20_memory R51, R53, R56 to
R58), which RESET makes in the order of 70_reset_and_hazards R240, and the configuration State.reset has. -/

namespace Sys2Proof

/-- The commandId words of the image: word `1 + 2*i` of entry `i` (30_encoding R79). -/
def Config.commandIds (c : Config) : List Word :=
  (List.range Config.dtN).filterMap fun i => c.dtImage[1 + 2 * i]?

/-- The handlerAddress words of the image: word `2 + 2*i` of entry `i` (30_encoding R79). -/
def Config.handlerAddrs (c : Config) : List Word :=
  (List.range Config.dtN).filterMap fun i => c.dtImage[2 + 2 * i]?

/-- The five checks of 30_encoding R80; the first takes in the image's length, which R79 fixes (log 18). -/
def Config.imageWellFormed (c : Config) : Bool :=
  decide (c.dtImage.length = 2 * Config.dtN + 2) &&
    decide (c.dtImage[0]? = some c.dtKey) && decide (c.dtImage[2 * Config.dtN + 1]? = some c.dtKey) &&
    c.commandIds.all (fun id => decide (id ≠ c.dtKey)) &&
    decide c.commandIds.Nodup &&
    decide (1 ≤ Config.dtN) && decide (Config.dtN ≤ c.dtMax) &&
    c.handlerAddrs.all (fun a => decide (a = c.handlerAddr))

/-- First byte address after the table region (20_memory R56). -/
def Config.tableEnd (c : Config) : Nat := c.dtBase.toNat + 2 * (2 * Config.dtN + 2)

/-- First byte address after the reply region (20_memory R57). -/
def Config.replyEnd (c : Config) : Nat := c.replyBase.toNat + 4

/-- The byte address lies in the dispatch table region (20_memory R56). -/
def Config.inTable (c : Config) (a : Nat) : Bool := decide (c.dtBase.toNat ≤ a) && decide (a < c.tableEnd)

/-- The byte address lies in the reply buffer region (20_memory R57). -/
def Config.inReply (c : Config) (a : Nat) : Bool := decide (c.replyBase.toNat ≤ a) && decide (a < c.replyEnd)

/-- Both bases are even (20_memory R53). -/
def Config.aligned (c : Config) : Bool :=
  decide (c.dtBase.toNat % 2 = 0) && decide (c.replyBase.toNat % 2 = 0)

/-- Both regions lie within 0x0000..0xFFFF (20_memory R51, 70_reset_and_hazards R240). -/
def Config.inRange (c : Config) : Bool := decide (c.tableEnd ≤ 65536) && decide (c.replyEnd ≤ 65536)

/-- The two regions do not overlap (20_memory R58). -/
def Config.disjoint (c : Config) : Bool :=
  decide (c.tableEnd ≤ c.replyBase.toNat) || decide (c.replyEnd ≤ c.dtBase.toNat)

/-- The reason RESET refuses a configuration for, checked in the order 70_reset_and_hazards R240 lists (R211). -/
def Config.refusal (c : Config) : Option RefusalReason :=
  if c.imageWellFormed = false then some .illFormedTable
  else if c.aligned = false then some .misaligned
  else if c.inRange = false then some .addressWrap
  else if c.disjoint = false then some .overlap
  else none

/-- The configuration passes every check and every value is of its type. -/
def Config.runs (c : Config) : Bool := decide (c.refusal = none) && c.fits

/-- The parameters R9 leaves open, with the one-entry image they determine (30_encoding R79). -/
def Config.unknownOneEntry : Config := { Config.unknown with dtImage := Config.unknown.oneEntryImage }

/-- The configuration of State.reset: an unknown one that passes the checks, with the values 00_scope R9 gives
(log 5). The second branch of the `if` is taken only where the unknown parameters have no run (30_encoding R80). -/
def Config.chip : Config :=
  { (if Config.unknownOneEntry.runs then Config.unknownOneEntry else Config.testVectors) with
    replyLenWord := 0x0000
    byteOrder := .little
    cfgFlagPolicy := .either
    ovfSpurious := true
    idleCompletion := .discard
    reqCycleOrder := .any
    rfIsrMayWake := true
    delaySufficient := false }

end Sys2Proof
end

