-- ==== Sys2Proof/Machine/State.lean ====
section
/-! DEFINITION. The state of LZSEQ: the record of 10_state R20, data memory, and the model's own fields (the
configuration, the schedule, the draw counter, the outputs). Plain data throughout. -/

namespace Sys2Proof.Machine

/-- The sequencer state `st` (10_state R21); `reserved` is code 3 (30_encoding R76), which nothing writes. -/
inductive SampleState where
  | idle
  | awaitingReference
  | awaitingThermistor
  | reserved
deriving DecidableEq, Repr, Inhabited

/-- The samples buffer (10_state R23): `none` is `unwritten`. -/
structure Samples where
  slot0 : Option Word
  slot1 : Option Word
deriving DecidableEq, Repr, Inhabited

/-- The converter control register, a record of named fields (10_state R26 to R38). GAIN, FDLY and CLK are `W_GAIN`,
`W_FDLY` and `W_CLK` bits wide, which are parameters: each is held as a number, and the invariant says it fits (log 7). -/
structure Converter where
  en : Bool
  sc : Bool
  ch : Channel
  gain : Nat
  fdly : Nat
  clk : Nat
  bias : Bool
  ie : Bool
  ovie : Bool
  ifg : Bool
  ovifg : Bool
  result : Word
deriving DecidableEq, Repr, Inhabited

/-- Which software context executes (10_state R41). -/
inductive Ctx where
  | main
  | convISR
  | rfISR
deriving DecidableEq, Repr, Inhabited

/-- The processor state the block reads and writes (10_state R39 to R41). -/
structure Cpu where
  gie : Bool
  lpm : Bool
  ctx : Ctx
deriving DecidableEq, Repr, Inhabited

/-- The saved processor state of the interrupt being handled (10_state R42). -/
structure Saved where
  lpm : Bool
  gie : Bool
  cause : Cause
  served : Bool
deriving DecidableEq, Repr, Inhabited

/-- The remaining half of a split REQ_CYCLE (10_state R43). -/
inductive Half where
  | none
  | startPending
  | statePending
deriving DecidableEq, Repr, Inhabited

/-- The main flow's progress (10_state R43). -/
structure MainFlow where
  half : Half
  done : Bool
deriving DecidableEq, Repr, Inhabited

/-- The progress of the RF interrupt (10_state R44). -/
inductive Phase where
  | idle
  | lookup
  | invoke (addr : Word)
  | start
  | wait
  | done
deriving DecidableEq, Repr, Inhabited

/-- The RF side (10_state R44). -/
structure RfSide where
  pending : Option Word
  phase : Phase
deriving DecidableEq, Repr, Inhabited

/-- The two reply words (10_state R45): `none` is `unwritten`. A view of data memory, not a field of State (log 9). -/
structure Reply where
  len : Option Word
  val : Option Word
deriving DecidableEq, Repr, Inhabited

/-- The sticky marks (10_state R46). -/
structure Marks where
  fault : Option FaultReason
  refused : Option RefusalReason
deriving DecidableEq, Repr, Inhabited

/-- Data memory: the bytes written, by address, in the canonical form `Memory.wf` states (Ops.lean, log 8). -/
abbrev Memory := List Host.Cell

/-- The whole state. -/
structure State where
  /-- The sequencer state (10_state R21). -/
  st : SampleState
  /-- The samples buffer (10_state R23). -/
  buf : Samples
  /-- The converter control register (10_state R26). -/
  conv : Converter
  /-- The processor state (10_state R39 to R41). -/
  cpu : Cpu
  /-- The saved processor state of the interrupt being handled, if one is (10_state R42). -/
  frame : Option Saved
  /-- The main flow's progress (10_state R43). -/
  main : MainFlow
  /-- The RF side (10_state R44). -/
  rf : RfSide
  /-- Data memory (20_memory R50). The reply words of 10_state R45 are its two words at `REPLY_BASE` (log 9). -/
  mem : Memory
  /-- The sticky marks (10_state R46). -/
  marks : Marks
  /-- The model's own: the configuration (10_state R47), which no step writes (log 5). -/
  cfg : Config
  /-- The model's own: the event words still to come (30_encoding R87; log 1). -/
  sched : List EventWord
  /-- The model's own: how many draws have been made (log 4). -/
  draws : Nat
  /-- The model's own: what READ_SAMPLE has output, oldest first (41_sampling_sequencer R140; log 15). -/
  outputs : List (Slot × Word)
deriving DecidableEq, Repr, Inhabited

/-- The model's own stops: the step has no next state. None of them is a fault of the block, whose faults are marks. -/
inductive Fault where
  /-- The word's operation is not enabled: it has no step here, and a schedule that presents it here is not a run
  (30_encoding R83, R87). Raised by every operation with an enabling condition. Safe (log 2). -/
  | notEnabled
  /-- A mark is set: the state has no step but RESET (60_exceptions R205). Raised by every operation but RESET. Safe
  (log 2). -/
  | marked
  /-- The schedule holds no further word (30_encoding R87). Raised by `step`. Safe (log 1). -/
  | noEvent
  /-- A byte of data memory that holds nothing was read. Raised by DT_LOOKUP, on an ill-formed table only. Safe (log 8). -/
  | unreadable (addr : Nat)
deriving DecidableEq, Repr, Inhabited

/-- Operations without a meaning. The block's own refusals are marks, not this. -/
inductive Refusal where
  /-- The operation has no meaning in this model yet. Raised by `exec`'s arms alone. Safe. -/
  | notModelled (mnemonic : String)
deriving DecidableEq, Repr, Inhabited

/-- Why the body of an operation does not complete: a fault mark or a refusal mark is set (60_exceptions R205), or the
model stops. -/
inductive Stop where
  | fault (r : FaultReason)
  | refuse (r : RefusalReason)
  | halt (f : Fault)
deriving DecidableEq, Repr, Inhabited

/-- Every component at the value 70_reset_and_hazards R240 gives it; CONV.CH, GAIN, FDLY, CLK and RESULT are the n-th
draw (logs 4, 6), the drawn widths cut to the configuration's (log 7). -/
def State.atReset (c : Config) (n : Nat) : State where
  st := .idle
  buf := ⟨none, none⟩
  conv :=
    { en := false
      sc := false
      ch := Config.freeChannel n
      gain := Config.freeGain n % 2 ^ c.wGain
      fdly := Config.freeFdly n % 2 ^ c.wFdly
      clk := Config.freeClk n % 2 ^ c.wClk
      bias := false
      ie := false
      ovie := false
      ifg := false
      ovifg := false
      result := Config.freeResult n }
  cpu := ⟨false, false, .main⟩
  frame := none
  main := ⟨.none, false⟩
  rf := ⟨none, .idle⟩
  mem := []
  marks := ⟨none, none⟩
  cfg := c
  sched := []
  draws := n + 1
  outputs := []

/-- The machine right after reset (70_reset_and_hazards R240, R241), with no schedule placed (log 1). -/
def State.reset : State := State.atReset Config.chip 0

end Sys2Proof.Machine
end

