-- ==== Sys2Proof/Machine/Flags.lean ====
section
/-! DEFINITION. Conditions computed from the state: the pending interrupts, who may step, and the choices a policy or a
draw makes for one step. Every one is a Bool or a value; none changes the state. -/

namespace Sys2Proof.Machine

/-- A mark is set (60_exceptions R205). -/
def State.marked (s : State) : Bool := s.marks.fault.isSome || s.marks.refused.isSome

/-- `inFlight` (10_state R49): a conversion has been started and has not ended. -/
def State.inFlight (s : State) : Bool := s.conv.sc

/-- The cause is in `causes(CONV)` (40_converter_control R106). -/
def Converter.hasCause (c : Converter) : Cause → Bool
  | .overflow => c.ovifg && c.ovie
  | .complete => c.ifg && c.ie
  | .rf => false

/-- `convPending` (10_state R49, 40_converter_control R106): the converter interrupt is requested. -/
def State.convPending (s : State) : Bool := s.conv.hasCause .overflow || s.conv.hasCause .complete

/-- The RF interrupt is requested (60_exceptions R203). -/
def State.rfPending (s : State) : Bool := s.rf.pending.isSome

/-- The main flow is awake and executing (10_state R40, R41). -/
def State.mainAwake (s : State) : Bool := decide (s.cpu.ctx = .main) && !s.cpu.lpm

/-- An operation of agent Main other than REQ_FINISH may step (10_state R40, R41, R43; 30_encoding R83). -/
def State.mainSteps (s : State) : Bool :=
  s.mainAwake && decide (s.main.half = .none) && !s.main.done

/-- REQ_FINISH may step (41_sampling_sequencer R142). -/
def State.finishSteps (s : State) : Bool := s.mainAwake && decide (s.main.half ≠ .none)

/-- The issuing context of a software operation runs (40_converter_control R102 to R105): a handler, or the main flow
where it may step. DEDUCED (log 10) from 00_scope R13 and 10_state R40, R43; safe. -/
def State.softwareRuns (s : State) : Bool := decide (s.cpu.ctx ≠ .main) || s.mainSteps

/-- An interrupt entry may be taken (30_encoding R83, 60_exceptions R212, R215). -/
def State.entryOpen (s : State) : Bool :=
  decide (s.cpu.ctx = .main) && s.cpu.gie && s.frame.isNone

/-- Some interrupt entry is enabled (60_exceptions R210, 70_reset_and_hazards R256). -/
def State.entryEnabled (s : State) : Bool := s.entryOpen && (s.convPending || s.rfPending)

/-- The handler serves this cause and has not yet done so (41_sampling_sequencer R133, R137). -/
def State.serving (s : State) (c : Cause) : Bool :=
  match s.frame with
  | some f => decide (f.cause = c) && !f.served
  | none => false

/-- `clr` of configure_and_start (40_converter_control R102): the policy's choice, drawn under `Either` (log 4). -/
def State.clearsFlags (s : State) : Bool :=
  match s.cfg.cfgFlagPolicy with
  | .keep => false
  | .clear => true
  | .either => Config.freeClear s.draws

/-- `order` of REQ_CYCLE (41_sampling_sequencer R131): the policy's choice, drawn under `Any` (log 4). -/
def State.requestOrder (s : State) : RequestOrder :=
  match s.cfg.reqCycleOrder with
  | .always o => o
  | .any => Config.freeOrder s.draws

/-- The order calls configure_and_start in the REQ_CYCLE step itself (41_sampling_sequencer R131). -/
def startsAtOnce : RequestOrder → Bool
  | .atomic => true
  | .stateFirst => false
  | .startFirst => true

end Sys2Proof.Machine
end

