-- ==== Sys2Proof/Machine/Operands.lean ====
section
/-! DEFINITION. What an operand stands for in a state, and the codes the spec numbers the enumerations by. -/

namespace Sys2Proof.Machine

/-- `buf[i]` (00_scope R11, 10_state R23). -/
def State.slot (s : State) : Slot → Option Word
  | .slot0 => s.buf.slot0
  | .slot1 => s.buf.slot1

/-- The value a result read gives (40_converter_control R104): `d` while a conversion is in flight, the last result
otherwise. -/
def State.resultValue (s : State) (d : Word) : Word := if s.conv.sc then d else s.conv.result

/-- The physical input code of a channel (30_encoding R75, parameter INCH). -/
def inputCode (c : Config) : Channel → Nat
  | .adc0 => c.inch.adc0
  | .internalTemperature => c.inch.internalTemperature
  | .thermistorAdc2 => c.inch.thermistorAdc2
  | .referenceAdc1 => c.inch.referenceAdc1

/-- The physical input code the converter has been given (30_encoding R75). -/
def State.inputCode (s : State) : Nat := Sys2Proof.Machine.inputCode s.cfg s.conv.ch

/-- SampleState codes (30_encoding R76). -/
def SampleState.code : SampleState → BitVec 2
  | .idle => 0
  | .awaitingReference => 1
  | .awaitingThermistor => 2
  | .reserved => 3

/-- Fault reason codes (30_encoding R78). -/
def faultCode : FaultReason → BitVec 8
  | .converterBusy => 1
  | .secondCycle => 2
  | .unwrittenSample => 3
  | .illegalState => 4
  | .idleCompletion => 5

/-- Refusal reason codes (30_encoding R78). -/
def refusalCode : RefusalReason → BitVec 8
  | .badOperation => 0x81
  | .wrongContext => 0x82
  | .illFormedTable => 0x83
  | .unknownHandler => 0x84
  | .tableWrite => 0x85
  | .misaligned => 0x86
  | .overlap => 0x87
  | .mixedWidth => 0x88
  | .addressWrap => 0x89

end Sys2Proof.Machine
end

