-- ==== Sys2Proof/Machine/Ops.lean ====
section
/-! DEFINITION. The named operations the meanings are written in: data memory, the marks, the gates an operation passes
before its body runs, taking an interrupt and returning from one, the sub-steps ("call") of the spec's pseudocode, the
table scan, and fetching the next event word. -/

namespace Sys2Proof.Machine

/-! Data memory (20_memory). -/

/-- The byte written at an address, if one is listed. -/
def Memory.get : Memory → Nat → Option Byte
  | [], _ => none
  | (k, b) :: rest, a => if k = a then some b else Memory.get rest a

/-- List a byte at an address, in its place in the order, over any byte listed there. -/
def Memory.put : Memory → Nat → Byte → Memory
  | [], a, b => [(a, b)]
  | (k, v) :: rest, a, b =>
    if a < k then (a, b) :: (k, v) :: rest
    else if a = k then (a, b) :: rest
    else (k, v) :: Memory.put rest a b

/-- List no byte at an address. -/
def Memory.drop : Memory → Nat → Memory
  | [], _ => []
  | (k, v) :: rest, a => if k = a then rest else (k, v) :: Memory.drop rest a

/-- The byte at the lower address of a word (20_memory R52). -/
def ByteOrder.first (o : ByteOrder) (w : Word) : Byte :=
  match o with
  | .little => w.extractLsb' 0 8
  | .big => w.extractLsb' 8 8

/-- The byte at the higher address of a word (20_memory R52). -/
def ByteOrder.second (o : ByteOrder) (w : Word) : Byte :=
  match o with
  | .little => w.extractLsb' 8 8
  | .big => w.extractLsb' 0 8

/-- The word whose bytes, lower address first, are these (20_memory R52). -/
def ByteOrder.join (o : ByteOrder) (b0 b1 : Byte) : Word :=
  match o with
  | .little => b1 ++ b0
  | .big => b0 ++ b1

/-- What an unlisted address reads as: the dispatch table image's byte inside the table region (20_memory R56, R60,
30_encoding R79), nothing anywhere else (DESIGN CHOICE, log 8; safe: reading nothing faults). -/
def imageByte (c : Config) (a : Nat) : Option Byte :=
  if c.inTable a then
    match c.dtImage[(a - c.dtBase.toNat) / 2]? with
    | some w => some (if (a - c.dtBase.toNat) % 2 = 0 then ByteOrder.first c.byteOrder w else ByteOrder.second c.byteOrder w)
    | none => none
  else none

/-- The addresses rise strictly from `lo` on. -/
def Memory.risesFrom : Nat → Memory → Bool
  | _, [] => true
  | lo, (k, _) :: rest => decide (lo ≤ k) && Memory.risesFrom (k + 1) rest

/-- The canonical form of data memory under a configuration: addresses strictly rising, each within 16 bits, and no
byte listed that an unlisted address would read as (log 8). -/
def Memory.wf (c : Config) (m : Memory) : Bool :=
  Memory.risesFrom 0 m && m.all fun x => decide (x.1 < 65536) && decide (imageByte c x.1 ≠ some x.2)

/-- The byte at an address, if the address holds one. -/
def State.readByte (s : State) (a : Nat) : Option Byte :=
  match Memory.get s.mem a with
  | some b => some b
  | none => imageByte s.cfg a

/-- Data memory after a byte is written, in canonical form. -/
def State.writeByte (s : State) (a : Nat) (b : Byte) : State :=
  { s with mem := if imageByte s.cfg a = some b then Memory.drop s.mem a else Memory.put s.mem a b }

/-- Why an access of `n` bytes at `a` is refused, if it is (20_memory R51, R53, R54; the order is DEDUCED, log 14). -/
def accessRefusal (a n : Nat) : Option RefusalReason :=
  if n ≠ 2 then some .mixedWidth
  else if 65536 < a + n then some .addressWrap
  else if a % 2 ≠ 0 then some .misaligned
  else none

/-- `MemRead(a, n)` (00_scope R12, 20_memory R52). -/
def State.memRead (s : State) (a n : Nat) : Except Stop Word :=
  match accessRefusal a n with
  | some r => .error (.refuse r)
  | none =>
    match s.readByte a with
    | none => .error (.halt (.unreadable a))
    | some b0 =>
      match s.readByte (a + 1) with
      | none => .error (.halt (.unreadable (a + 1)))
      | some b1 => .ok (ByteOrder.join s.cfg.byteOrder b0 b1)

/-- The two bytes of a word written, the one at the lower address first (20_memory R52). -/
def State.writeWord (s : State) (a : Nat) (v : Word) : State :=
  (s.writeByte a (ByteOrder.first s.cfg.byteOrder v)).writeByte (a + 1) (ByteOrder.second s.cfg.byteOrder v)

/-- `MemWrite(a, n, v)` (00_scope R12, 20_memory R52, R56). -/
def State.memWrite (s : State) (a n : Nat) (v : Word) : Except Stop State :=
  match accessRefusal a n with
  | some r => .error (.refuse r)
  | none =>
    if s.cfg.inTable a || s.cfg.inTable (a + 1) then .error (.refuse .tableWrite)
    else .ok (s.writeWord a v)

/-- The word at an address, if both its bytes hold something. -/
def State.wordAt (s : State) (a : Nat) : Option Word :=
  match s.readByte a, s.readByte (a + 1) with
  | some b0, some b1 => some (ByteOrder.join s.cfg.byteOrder b0 b1)
  | _, _ => none

/-- `reply` (10_state R45, 30_encoding R81): the two words at `REPLY_BASE`, `unwritten` where nothing is (log 9). -/
def State.reply (s : State) : Reply :=
  ⟨s.wordAt s.cfg.replyBase.toNat, s.wordAt (s.cfg.replyBase.toNat + 2)⟩

/-! Marks and outcomes (60_exceptions R205, R214). -/

/-- `raise Fault(r)`: the first fault is kept (60_exceptions R205). -/
def State.raiseFault (s : State) (r : FaultReason) : State :=
  { s with marks := { s.marks with fault := s.marks.fault.or (some r) } }

/-- `refuse(r)`: the first refusal is kept (60_exceptions R205). -/
def State.refuse (s : State) (r : RefusalReason) : State :=
  { s with marks := { s.marks with refused := s.marks.refused.or (some r) } }

/-- The outcome of an operation's body at `s`: where it does not complete, every write it made is discarded and the
state at the step's start gets the mark alone (60_exceptions R214). -/
def State.commit (s : State) : Except Stop State → Host.Outcome State Fault Refusal
  | .ok t => .next t
  | .error (.fault r) => .next (s.raiseFault r)
  | .error (.refuse r) => .next (s.refuse r)
  | .error (.halt f) => .fault f

/-- An operation that waits until a condition holds: in a marked state, and while the condition fails, it has no step
(60_exceptions R205, 30_encoding R83, R87; log 2). -/
def State.whenEnabled (s : State) (enabled : Bool) (body : Except Stop State) : Host.Outcome State Fault Refusal :=
  if s.marked then .fault .marked
  else if enabled then s.commit body
  else .fault .notEnabled

/-- A handler-body operation: refused with WrongContext while another context executes, and otherwise an operation that
waits for its condition (30_encoding R83; logs 16, 19). -/
def State.inHandler (s : State) (x : Ctx) (enabled : Bool) (body : Except Stop State) :
    Host.Outcome State Fault Refusal :=
  if s.marked then .fault .marked
  else if s.cpu.ctx ≠ x then .next (s.refuse .wrongContext)
  else if enabled then s.commit body
  else .fault .notEnabled

/-! Interrupts (60_exceptions R212, R213; 42_dispatch R162, R168). -/

/-- Taking an interrupt: the processor state is saved with the cause, the handler runs awake with interrupts masked, and
the context changes (60_exceptions R212, 42_dispatch R162). No CONV flag is cleared. -/
def State.takeInterrupt (s : State) (c : Cause) (x : Ctx) : State :=
  { s with
    frame := some { lpm := s.cpu.lpm, gie := s.cpu.gie, cause := c, served := false }
    cpu := { gie := false, lpm := false, ctx := x } }

/-- Returning from an interrupt: the saved bits are restored and the frame is consumed (60_exceptions R213,
42_dispatch R168). -/
def State.returnFrom (s : State) (f : Saved) : State :=
  { s with
    cpu := { gie := f.gie, lpm := f.lpm, ctx := .main }
    frame := none }

/-- `frame.served <- 1` (41_sampling_sequencer R133, R137). -/
def State.markServed (s : State) : State :=
  { s with frame := s.frame.map fun f => { f with served := true } }

/-- "signal wake": `frame.lpm <- 0` (41_sampling_sequencer R138). -/
def State.signalWake (s : State) : State :=
  { s with frame := s.frame.map fun f => { f with lpm := false } }

/-! Converter control (40_converter_control). -/

/-- The writes of configure_and_start (40_converter_control R101, R102), with the draw its policy makes. -/
def State.startConversion (s : State) (ch : Channel) : State :=
  { s with
    conv :=
      { s.conv with
        ch := ch
        gain := s.cfg.cfgGain
        fdly := s.cfg.cfgFdly
        clk := s.cfg.cfgClk
        bias := true
        ie := true
        ovie := true
        ifg := s.conv.ifg && !s.clearsFlags
        ovifg := s.conv.ovifg && !s.clearsFlags
        en := true
        sc := true }
    draws := s.draws + 1 }

/-- configure_and_start(ch) (40_converter_control R102). -/
def State.configureAndStart (s : State) (ch : Channel) : Except Stop State :=
  if s.conv.sc then .error (.fault .converterBusy) else .ok (s.startConversion ch)

/-- "disable converter" (40_converter_control R103): a conversion in flight is aborted. -/
def State.disableConverter (s : State) : State :=
  { s with conv := { s.conv with en := false, sc := false } }

/-- The side effect of reading the result: `CONV.IFG <- 0` (40_converter_control R104). -/
def State.clearIfg (s : State) : State :=
  { s with conv := { s.conv with ifg := false } }

/-- "clear overflow flag only" (40_converter_control R105). -/
def State.clearOverflow (s : State) : State :=
  { s with conv := { s.conv with ovifg := false } }

/-! The request and the completion arms (41_sampling_sequencer). -/

/-- REQ_CYCLE's writes under one order (41_sampling_sequencer R131); each request makes a draw. -/
def State.requestBy (s : State) : RequestOrder → State
  | .atomic => { s.startConversion .referenceAdc1 with st := .awaitingReference }
  | .stateFirst =>
    { s with
      st := .awaitingReference
      main := { s.main with half := .startPending }
      draws := s.draws + 1 }
  | .startFirst =>
    { s.startConversion .referenceAdc1 with main := { s.main with half := .statePending } }

/-- REQ_CYCLE (41_sampling_sequencer R131): SecondCycle is checked before configure_and_start's own check (R211). -/
def State.request (s : State) : Except Stop State :=
  if s.st ≠ .idle then .error (.fault .secondCycle)
  else if s.conv.sc && startsAtOnce s.requestOrder then .error (.fault .converterBusy)
  else .ok (s.requestBy s.requestOrder)

/-- REQ_FINISH (41_sampling_sequencer R142). -/
def State.finishRequest (s : State) : Except Stop State :=
  match s.main.half with
  | .none => .error (.halt .notEnabled)
  | .startPending =>
    match s.configureAndStart .referenceAdc1 with
    | .ok t => .ok { t with main := { t.main with half := .none } }
    | .error e => .error e
  | .statePending => .ok { s with st := .awaitingReference, main := { s.main with half := .none } }

/-- READ_SAMPLE (41_sampling_sequencer R140). The output is the step's label; the model lists it (log 15). -/
def State.readSlot (s : State) (i : Slot) : Except Stop State :=
  match s.slot i with
  | none => .error (.fault .unwrittenSample)
  | some v => .ok { s with outputs := s.outputs ++ [(i, v)] }

/-- The completion arm for AwaitingReference (41_sampling_sequencer R134). -/
def State.completeReference (s : State) (d : Word) : Except Stop State :=
  match ({ s.clearIfg with buf := { s.buf with slot0 := some (s.resultValue d) } } : State).configureAndStart
      .thermistorAdc2 with
  | .ok t => .ok { t with st := .awaitingThermistor }
  | .error e => .error e

/-- The completion arm for AwaitingThermistor (41_sampling_sequencer R135). -/
def State.completeThermistor (s : State) (d : Word) : State :=
  { s.clearIfg.disableConverter.signalWake with
    buf := { s.buf with slot1 := some (s.resultValue d) }
    st := .idle }

/-- The completion arm for Idle (41_sampling_sequencer R136): under Discard the value read is dropped. -/
def State.completeIdle (s : State) : Except Stop State :=
  match s.cfg.idleCompletion with
  | .discard => .ok s.clearIfg
  | .fault => .error (.fault .idleCompletion)

/-- The arm ISR_COMPLETE takes, chosen by `st` at the start of the step (41_sampling_sequencer R133). -/
def State.completeArm (s : State) (d : Word) : Except Stop State :=
  match s.st with
  | .idle => s.completeIdle
  | .awaitingReference => s.completeReference d
  | .awaitingThermistor => .ok (s.completeThermistor d)
  | .reserved => .error (.fault .illegalState)

/-- ISR_COMPLETE's body: refused unless the handler serves Complete (41_sampling_sequencer R133). -/
def State.serveComplete (s : State) (d : Word) : Except Stop State :=
  if s.serving .complete then
    match s.completeArm d with
    | .ok t => .ok t.markServed
    | .error e => .error e
  else .error (.refuse .wrongContext)

/-- ISR_OVERFLOW's body: refused unless the handler serves Overflow (41_sampling_sequencer R137). -/
def State.serveOverflow (s : State) : Except Stop State :=
  if s.serving .overflow then .ok s.clearOverflow.markServed else .error (.refuse .wrongContext)

/-- RETI's body: refused unless the frame's cause has been served (60_exceptions R213). Without a frame, which no run
reaches, it is refused too (DEDUCED, log 13; safe). -/
def State.returnServed (s : State) : Except Stop State :=
  match s.frame with
  | some f => if f.served then .ok (s.returnFrom f) else .error (.refuse .wrongContext)
  | none => .error (.refuse .wrongContext)

/-! The dispatch table and the reply (42_dispatch). -/

/-- `W(k)` (42_dispatch R163, 20_memory R60). -/
def State.tableWord (s : State) (k : Nat) : Except Stop Word := s.memRead (s.cfg.dtBase.toNat + 2 * k) 2

/-- The scan's loop from word `k` on, for at most `n` entries (42_dispatch R163): the handler address found, if any. -/
def State.scanFrom (s : State) (id : Word) : Nat → Nat → Except Stop (Option Word)
  | 0, _ => .ok none
  | n + 1, k =>
    match s.tableWord k with
    | .error e => .error e
    | .ok w =>
      if w = s.cfg.dtKey then .ok none
      else if w = id then
        match s.tableWord (k + 1) with
        | .error e => .error e
        | .ok a => .ok (some a)
      else s.scanFrom id n (k + 2)

/-- The lookup of a commandId (42_dispatch R163). -/
def State.lookupId (s : State) (id : Word) : Except Stop (Option Word) :=
  match s.tableWord 0 with
  | .error e => .error e
  | .ok w => if w = s.cfg.dtKey then s.scanFrom id s.cfg.dtMax 1 else .ok none

/-- The phase a lookup leads to (42_dispatch R163). -/
def phaseOf : Option Word → Phase
  | some a => .invoke a
  | none => .done

/-- DT_LOOKUP's body (42_dispatch R163). With no pending id, which no run reaches in phase Lookup, it has no step
(DEDUCED, log 13; safe). -/
def State.lookupPending (s : State) : Except Stop State :=
  match s.rf.pending with
  | none => .error (.halt .notEnabled)
  | some id =>
    match s.lookupId id with
    | .error e => .error e
    | .ok r => .ok { s with rf := { pending := none, phase := phaseOf r } }

/-- DT_INVOKE's body (42_dispatch R164). -/
def State.invokeHandler (s : State) : Except Stop State :=
  match s.rf.phase with
  | .invoke a =>
    if a = s.cfg.handlerAddr then .ok { s with rf := { s.rf with phase := .start } }
    else .error (.refuse .unknownHandler)
  | _ => .error (.halt .notEnabled)

/-- The phase is `Invoke(a)` for some `a` (42_dispatch R164). -/
def invoking : Phase → Bool
  | .invoke _ => true
  | .idle => false
  | .lookup => false
  | .start => false
  | .wait => false
  | .done => false

/-- CUSTOM_START's body (42_dispatch R165). -/
def State.customBegin (s : State) : Except Stop State :=
  match s.configureAndStart s.cfg.customCh with
  | .ok t => .ok { t with rf := { t.rf with phase := .wait } }
  | .error e => .error e

/-- REPLY_WRITE's body (42_dispatch R166): the length word, then the value. -/
def State.writeReply (s : State) (v : Word) : Except Stop State :=
  match s.memWrite s.cfg.replyBase.toNat 2 s.cfg.replyLenWord with
  | .ok t => t.memWrite (s.cfg.replyBase.toNat + 2) 2 v
  | .error e => .error e

/-- CUSTOM_FINISH's body (42_dispatch R167). -/
def State.customEnd (s : State) (d : Word) : Except Stop State :=
  match s.clearIfg.writeReply (s.resultValue d) with
  | .ok t => .ok { t with rf := { t.rf with phase := .done } }
  | .error e => .error e

/-- RF_RETURN's body (42_dispatch R168). Without a frame, which no run reaches, it has no step (DEDUCED, log 13; safe). -/
def State.rfReturnBody (s : State) (w : Bool) : Except Stop State :=
  match s.frame with
  | some f =>
    .ok { s.returnFrom { f with lpm := f.lpm && !w } with rf := { s.rf with phase := .idle } }
  | none => .error (.halt .notEnabled)

/-! Reset (70_reset_and_hazards R240). -/

/-- The state RESET gives: a refused configuration sets the mark alone, and otherwise every component of the block gets
its reset value. The model's own schedule, draw counter and outputs go on (log 17). -/
def State.afterReset (s : State) : State :=
  match s.cfg.refusal with
  | some r => s.refuse r
  | none => { State.atReset s.cfg s.draws with sched := s.sched, outputs := s.outputs }

/-! Event words (30_encoding R87). -/

/-- The next event word and the state with it taken from the schedule (log 1). -/
def State.fetch (s : State) : Option (EventWord × State) :=
  match s.sched with
  | [] => none
  | w :: rest => some (w, { s with sched := rest })

/-- A word that names no operation: refused with BadOperation, unless a mark is set (30_encoding R71, R82;
60_exceptions R205, R208; log 3). -/
def State.badWord (s : State) : Host.Outcome State Fault Refusal :=
  s.whenEnabled true (.error (.refuse .badOperation))

/-- The state with an event word placed as the next one (log 1). -/
def State.placeWord (s : State) (w : EventWord) : State := { s with sched := w :: s.sched }

end Sys2Proof.Machine
end

