-- ==== Sys2Proof/Machine/ConvHandler.lean ====
section
/-! DEFINITION. The meanings of the converter interrupt: entry, the handler's arms, the wake, the return
(60_exceptions R212, R213; 41_sampling_sequencer R133 to R138). -/

namespace Sys2Proof.Machine

/-- CONV_IRQ_ENTRY (60_exceptions R212). -/
def execConvIrqEntry (c : Cause) (s : State) : Host.Outcome State Fault Refusal :=
  s.whenEnabled (s.entryOpen && s.conv.hasCause c) (.ok (s.takeInterrupt c .convISR))

/-- ISR_COMPLETE (41_sampling_sequencer R133). -/
def execIsrComplete (d : Word) (s : State) : Host.Outcome State Fault Refusal :=
  s.inHandler .convISR true (s.serveComplete d)

/-- ISR_OVERFLOW (41_sampling_sequencer R137). -/
def execIsrOverflow (s : State) : Host.Outcome State Fault Refusal := s.inHandler .convISR true s.serveOverflow

/-- RETI (60_exceptions R213). -/
def execReti (s : State) : Host.Outcome State Fault Refusal := s.inHandler .convISR true s.returnServed

/-- WAKE as a standalone operation (41_sampling_sequencer R138). -/
def execWake (s : State) : Host.Outcome State Fault Refusal :=
  s.inHandler .convISR s.frame.isSome (.ok s.signalWake)

end Sys2Proof.Machine
end

