-- ==== Sys2Proof/Machine/ConverterControl.lean ====
section
/-! DEFINITION. The meanings of the software converter operations and of the Converter agent's steps
(40_converter_control R102 to R105, R107 to R109). -/

namespace Sys2Proof.Machine

/-- CFG_START (40_converter_control R102). -/
def execCfgStart (ch : Channel) (s : State) : Host.Outcome State Fault Refusal :=
  s.whenEnabled s.softwareRuns (s.configureAndStart ch)

/-- CONV_DISABLE (40_converter_control R103). -/
def execConvDisable (s : State) : Host.Outcome State Fault Refusal :=
  s.whenEnabled s.softwareRuns (.ok s.disableConverter)

/-- RESULT_READ as a standalone operation (40_converter_control R104): the value returned, `s.resultValue d`, is
discarded, so the operation leaves the same state for every `d` (log 11). -/
def execResultRead (_d : Word) (s : State) : Host.Outcome State Fault Refusal :=
  s.whenEnabled s.softwareRuns (.ok s.clearIfg)

/-- OV_CLEAR (40_converter_control R105). -/
def execOvClear (s : State) : Host.Outcome State Fault Refusal := s.whenEnabled s.softwareRuns (.ok s.clearOverflow)

/-- CONV_DONE (40_converter_control R107). -/
def execConvDone (v : Word) (s : State) : Host.Outcome State Fault Refusal :=
  s.whenEnabled (s.conv.en && s.conv.sc)
    (.ok { s with conv := { s.conv with result := v, ifg := true, sc := false } })

/-- CONV_OVF_END (40_converter_control R108). -/
def execConvOvfEnd (s : State) : Host.Outcome State Fault Refusal :=
  s.whenEnabled (s.conv.en && s.conv.sc) (.ok { s with conv := { s.conv with ovifg := true, sc := false } })

/-- CONV_OVF (40_converter_control R109). -/
def execConvOvf (s : State) : Host.Outcome State Fault Refusal :=
  s.whenEnabled (s.conv.en && s.cfg.ovfSpurious) (.ok { s with conv := { s.conv with ovifg := true } })

end Sys2Proof.Machine
end

