-- ==== Sys2Proof/Machine/MainFlow.lean ====
section
/-! DEFINITION. The meanings of the main flow's operations (41_sampling_sequencer R131, R132, R139 to R143). -/

namespace Sys2Proof.Machine

/-- REQ_CYCLE (41_sampling_sequencer R131). -/
def execReqCycle (s : State) : Host.Outcome State Fault Refusal := s.whenEnabled s.mainSteps s.request

/-- SLEEP (41_sampling_sequencer R132): both bits in one step. -/
def execSleep (s : State) : Host.Outcome State Fault Refusal :=
  s.whenEnabled s.mainSteps (.ok { s with cpu := { s.cpu with gie := true, lpm := true } })

/-- ENABLE_INT (41_sampling_sequencer R143). -/
def execEnableInt (s : State) : Host.Outcome State Fault Refusal :=
  s.whenEnabled s.mainSteps (.ok { s with cpu := { s.cpu with gie := true } })

/-- CALIBRATE (41_sampling_sequencer R139): it changes no state. -/
def execCalibrate (s : State) : Host.Outcome State Fault Refusal := s.whenEnabled s.mainSteps (.ok s)

/-- READ_SAMPLE (41_sampling_sequencer R140). -/
def execReadSample (i : Slot) (s : State) : Host.Outcome State Fault Refusal :=
  s.whenEnabled s.mainSteps (s.readSlot i)

/-- REQ_FINISH (41_sampling_sequencer R142). -/
def execReqFinish (s : State) : Host.Outcome State Fault Refusal := s.whenEnabled s.finishSteps s.finishRequest

/-- END (41_sampling_sequencer R141). -/
def execEndMain (s : State) : Host.Outcome State Fault Refusal :=
  s.whenEnabled s.mainSteps (.ok { s with main := { s.main with done := true } })

end Sys2Proof.Machine
end

