-- ==== Sys2Proof/Machine/RfCommand.lean ====
section
/-! DEFINITION. The meanings of the RF side: the frame, the RF interrupt, the lookup, the custom handler, the reply, the
return (42_dispatch R161 to R168), and RESET (70_reset_and_hazards R240). -/

namespace Sys2Proof.Machine

/-- RF_FRAME (42_dispatch R161): one frame at a time. -/
def execRfFrame (id : Word) (s : State) : Host.Outcome State Fault Refusal :=
  s.whenEnabled (s.rf.pending.isNone && decide (s.rf.phase = .idle))
    (.ok { s with rf := { s.rf with pending := some id } })

/-- RF_IRQ_ENTRY (42_dispatch R162). -/
def execRfIrqEntry (s : State) : Host.Outcome State Fault Refusal :=
  s.whenEnabled (s.entryOpen && s.rfPending)
    (.ok { s.takeInterrupt .rf .rfISR with rf := { s.rf with phase := .lookup } })

/-- DT_LOOKUP (42_dispatch R163). -/
def execDtLookup (s : State) : Host.Outcome State Fault Refusal :=
  s.inHandler .rfISR (decide (s.rf.phase = .lookup)) s.lookupPending

/-- DT_INVOKE (42_dispatch R164). -/
def execDtInvoke (s : State) : Host.Outcome State Fault Refusal :=
  s.inHandler .rfISR (invoking s.rf.phase) s.invokeHandler

/-- CUSTOM_START (42_dispatch R165). -/
def execCustomStart (s : State) : Host.Outcome State Fault Refusal :=
  s.inHandler .rfISR (decide (s.rf.phase = .start)) s.customBegin

/-- CUSTOM_FINISH (42_dispatch R167): with a busy-wait that always suffices it waits for the conversion's end. -/
def execCustomFinish (d : Word) (s : State) : Host.Outcome State Fault Refusal :=
  s.inHandler .rfISR (decide (s.rf.phase = .wait) && (!s.cfg.delaySufficient || !s.conv.sc)) (s.customEnd d)

/-- REPLY_WRITE as a standalone operation (42_dispatch R166). -/
def execReplyWrite (v : Word) (s : State) : Host.Outcome State Fault Refusal := s.inHandler .rfISR true (s.writeReply v)

/-- RF_RETURN (42_dispatch R168). -/
def execRfReturn (w : Bool) (s : State) : Host.Outcome State Fault Refusal :=
  s.inHandler .rfISR (decide (s.rf.phase = .done) && (!w || s.cfg.rfIsrMayWake)) (s.rfReturnBody w)

/-- RESET (70_reset_and_hazards R240): enabled in every state, a marked one too. -/
def execReset (s : State) : Host.Outcome State Fault Refusal := .next s.afterReset

end Sys2Proof.Machine
end

