-- ==== Sys2Proof/Machine/Dispatch.lean ====
section
/-! DEFINITION. What each operation does to the state: one arm per constructor of Instr, each a direct call of the
meaning (30_encoding R72). -/

namespace Sys2Proof.Machine

def exec (i : Instr) (s : State) : Host.Outcome State Fault Refusal :=
  match i with
  | .reqCycle => Sys2Proof.Machine.execReqCycle s
  | .sleep => Sys2Proof.Machine.execSleep s
  | .enableInt => Sys2Proof.Machine.execEnableInt s
  | .calibrate => Sys2Proof.Machine.execCalibrate s
  | .readSample k => Sys2Proof.Machine.execReadSample k s
  | .reqFinish => Sys2Proof.Machine.execReqFinish s
  | .endMain => Sys2Proof.Machine.execEndMain s
  | .cfgStart ch => Sys2Proof.Machine.execCfgStart ch s
  | .convDisable => Sys2Proof.Machine.execConvDisable s
  | .resultRead d => Sys2Proof.Machine.execResultRead d s
  | .ovClear => Sys2Proof.Machine.execOvClear s
  | .convDone v => Sys2Proof.Machine.execConvDone v s
  | .convOvfEnd => Sys2Proof.Machine.execConvOvfEnd s
  | .convOvf => Sys2Proof.Machine.execConvOvf s
  | .convIrqEntry c => Sys2Proof.Machine.execConvIrqEntry c s
  | .isrComplete d => Sys2Proof.Machine.execIsrComplete d s
  | .isrOverflow => Sys2Proof.Machine.execIsrOverflow s
  | .reti => Sys2Proof.Machine.execReti s
  | .wake => Sys2Proof.Machine.execWake s
  | .rfFrame id => Sys2Proof.Machine.execRfFrame id s
  | .rfIrqEntry => Sys2Proof.Machine.execRfIrqEntry s
  | .dtLookup => Sys2Proof.Machine.execDtLookup s
  | .dtInvoke => Sys2Proof.Machine.execDtInvoke s
  | .customStart => Sys2Proof.Machine.execCustomStart s
  | .customFinish d => Sys2Proof.Machine.execCustomFinish d s
  | .replyWrite v => Sys2Proof.Machine.execReplyWrite v s
  | .rfReturn w => Sys2Proof.Machine.execRfReturn w s
  | .reset => Sys2Proof.Machine.execReset s

end Sys2Proof.Machine
end

