-- ==== Sys2Proof/Machine/Step.lean ====
section
/-! DEFINITION. One step of the machine: the schedule's next event word is taken, decoded and applied (30_encoding R87). -/

namespace Sys2Proof.Machine

/-- One step. A word that names no operation is refused with BadOperation; an empty schedule has no step (log 1). -/
def step (s : State) : Host.Outcome State Fault Refusal :=
  match s.fetch with
  | none => .fault .noEvent
  | some (w, t) =>
    match decode w with
    | .ok i => exec i t
    | .error _ => t.badWord

/-- The state with an event word, numbered as spec/opcode_table.json numbers it, placed where `step` takes its next one:
at the head of the schedule (log 1). -/
def State.withFetchWord (s : State) (nbits w : Nat) : State := s.placeWord (BitVec.ofNat 32 (w % 2 ^ nbits))

end Sys2Proof.Machine
end

