-- ==== Sys2Proof/Safety.lean ====
section
/-! DEFINITION. The terms claims are stated in: when an operation may run, what a step leaves unchanged, the invariant of
every run, final and stuck states, runs and fairness. Nothing in the machine depends on this file. -/

namespace Sys2Proof.Machine

/-! When an operation may run. -/

/-- No mark is set (60_exceptions R205). -/
def Unmarked (s : State) : Prop := s.marks.fault = none ∧ s.marks.refused = none

/-- The main flow may take its next operation: it executes, is awake, is not between the halves of a request, and has
not ended (10_state R40, R41, R43). -/
structure MainReady (s : State) : Prop where
  unmarked : Unmarked s
  ctx : s.cpu.ctx = .main
  awake : s.cpu.lpm = false
  whole : s.main.half = .none
  running : s.main.done = false

/-- The main flow may take the second half of a request (41_sampling_sequencer R142). -/
structure FinishReady (s : State) : Prop where
  unmarked : Unmarked s
  ctx : s.cpu.ctx = .main
  awake : s.cpu.lpm = false

/-- A software context runs (30_encoding R72): a handler, or the main flow where it may step (log 10). -/
def SoftwareReady (s : State) : Prop := (Unmarked s ∧ s.cpu.ctx ≠ .main) ∨ MainReady s

/-- A handler's context executes (10_state R41). -/
structure HandlerReady (s : State) (x : Ctx) : Prop where
  unmarked : Unmarked s
  ctx : s.cpu.ctx = x

/-- An interrupt may be taken (60_exceptions R212, 42_dispatch R162). -/
structure EntryReady (s : State) : Prop where
  unmarked : Unmarked s
  ctx : s.cpu.ctx = .main
  gie : s.cpu.gie = true
  noFrame : s.frame = none

/-- The cause is in `causes(CONV)` (40_converter_control R106). -/
def InCauses (c : Converter) : Cause → Prop
  | .overflow => c.ovifg = true ∧ c.ovie = true
  | .complete => c.ifg = true ∧ c.ie = true
  | .rf => False

/-- The operation has no step here: it leads to no next state (30_encoding R83, R87). -/
def NoStep (o : Host.Outcome State Fault Refusal) : Prop := ∀ t, o ≠ .next t

/-- An operation of the handlers' bodies, with the context it belongs to (30_encoding R72, R83). -/
def handlerCtx : Instr → Option Ctx
  | .isrComplete _ => some .convISR
  | .isrOverflow => some .convISR
  | .reti => some .convISR
  | .wake => some .convISR
  | .dtLookup => some .rfISR
  | .dtInvoke => some .rfISR
  | .customStart => some .rfISR
  | .customFinish _ => some .rfISR
  | .replyWrite _ => some .rfISR
  | .rfReturn _ => some .rfISR
  | .reqCycle => none
  | .sleep => none
  | .enableInt => none
  | .calibrate => none
  | .readSample _ => none
  | .reqFinish => none
  | .endMain => none
  | .cfgStart _ => none
  | .convDisable => none
  | .resultRead _ => none
  | .ovClear => none
  | .convDone _ => none
  | .convOvfEnd => none
  | .convOvf => none
  | .convIrqEntry _ => none
  | .rfFrame _ => none
  | .rfIrqEntry => none
  | .reset => none

/-- An RF-side operation (42_dispatch R161 to R168). -/
def rfSide (i : Instr) : Bool :=
  match i.agent with
  | .rfStack => true
  | .host => decide (i ≠ .reset)
  | .main => false
  | .convISR => false
  | .converter => false
  | .software => false

/-! What a step leaves unchanged. -/

/-- The parts of the state a frame speaks of. The draw counter is the model's own and is left out. -/
inductive Part where
  | st
  | buf
  | conv
  | cpu
  | frame
  | main
  | rf
  | mem
  | marks
  | cfg
  | sched
  | outputs
deriving DecidableEq, Repr

/-- A part is the same in two states; data memory is, when every byte reads the same. -/
def Part.same (s t : State) : Part → Prop
  | .st => t.st = s.st
  | .buf => t.buf = s.buf
  | .conv => t.conv = s.conv
  | .cpu => t.cpu = s.cpu
  | .frame => t.frame = s.frame
  | .main => t.main = s.main
  | .rf => t.rf = s.rf
  | .mem => ∀ a, t.readByte a = s.readByte a
  | .marks => t.marks = s.marks
  | .cfg => t.cfg = s.cfg
  | .sched => t.sched = s.sched
  | .outputs => t.outputs = s.outputs

/-- Every part but those listed is the same after as before. -/
def UnchangedExcept (ps : List Part) (s t : State) : Prop := ∀ p, p ∉ ps → Part.same s t p

/-- What configure_and_start leaves in the converter (40_converter_control R102): `c` before, `c'` after, under a
configuration. Both flags are kept or both are cleared, as CFG_FLAG_POLICY says; either, where it draws. -/
structure Started (g : Config) (ch : Channel) (c c' : Converter) : Prop where
  en : c'.en = true
  sc : c'.sc = true
  ch : c'.ch = ch
  gain : c'.gain = g.cfgGain
  fdly : c'.fdly = g.cfgFdly
  clk : c'.clk = g.cfgClk
  bias : c'.bias = true
  ie : c'.ie = true
  ovie : c'.ovie = true
  result : c'.result = c.result
  keep : g.cfgFlagPolicy = .keep → c'.ifg = c.ifg ∧ c'.ovifg = c.ovifg
  clear : g.cfgFlagPolicy = .clear → c'.ifg = false ∧ c'.ovifg = false
  either : (c'.ifg = c.ifg ∧ c'.ovifg = c.ovifg) ∨ (c'.ifg = false ∧ c'.ovifg = false)

/-- A step raised a fault: the mark is set and nothing else is written (60_exceptions R205, R214). -/
def Faulted (s : State) (r : FaultReason) (o : Host.Outcome State Fault Refusal) : Prop :=
  o = .next { s with marks := ⟨some r, s.marks.refused⟩ }

/-- A step was refused: the mark is set and nothing else is written (60_exceptions R205, R214). -/
def Refused (s : State) (r : RefusalReason) (o : Host.Outcome State Fault Refusal) : Prop :=
  o = .next { s with marks := ⟨s.marks.fault, some r⟩ }

/-- The outcome with a function applied to its next state. -/
def mapNext (f : State → State) : Host.Outcome State Fault Refusal → Host.Outcome State Fault Refusal
  | .next t => .next (f t)
  | .fault r => .fault r
  | .refused r => .refused r

/-! The invariant of every run. -/

/-- Data memory is canonical, and lists only bytes of the reply region (20_memory R56, R57). -/
structure MemoryInv (s : State) : Prop where
  canonical : Memory.wf s.cfg s.mem = true
  replyOnly : ∀ x ∈ s.mem, s.cfg.inReply x.1 = true

/-- What holds in every state a run reaches. -/
structure Inv (s : State) : Prop where
  /-- A frame exists exactly while a handler runs (10_state R42). -/
  frameCtx : s.frame = none ↔ s.cpu.ctx = .main
  /-- A handler runs awake with interrupts masked (60_exceptions R212, R215). -/
  masked : s.cpu.ctx ≠ .main → s.cpu.gie = false ∧ s.cpu.lpm = false
  /-- The saved frame had interrupts enabled, or the entry could not have been taken (60_exceptions R212). -/
  savedGie : ∀ f, s.frame = some f → f.gie = true
  /-- The frame's cause is the RF interrupt exactly while the RF handler runs (10_state R42). -/
  causeCtx : ∀ f, s.frame = some f → (f.cause = .rf ↔ s.cpu.ctx = .rfISR)
  /-- A conversion in flight has its converter enabled (40_converter_control R102, R103). -/
  flightEnabled : s.conv.sc = true → s.conv.en = true
  /-- An enabled converter has its interrupts and its bias source enabled (10_state R33 to R35). -/
  startedEnables : s.conv.en = true → s.conv.bias = true ∧ s.conv.ie = true ∧ s.conv.ovie = true
  /-- A flag is set only once configure_and_start has enabled the interrupts (10_state R36, R37). -/
  flagEnables : s.conv.ifg = true ∨ s.conv.ovifg = true → s.conv.ie = true ∧ s.conv.ovie = true
  /-- The reserved code is never written (30_encoding R76). -/
  legalSt : s.st ≠ .reserved
  /-- The RF phase is Idle exactly while the RF handler does not run (42_dispatch R160). -/
  phaseCtx : s.rf.phase = .idle ↔ s.cpu.ctx ≠ .rfISR
  /-- A command is pending throughout phase Lookup (42_dispatch R162, R163). -/
  lookupPending : s.rf.phase = .lookup → s.rf.pending ≠ none
  /-- No command is pending in a later phase (42_dispatch R161, R163). -/
  laterNotPending : s.rf.phase ≠ .idle → s.rf.phase ≠ .lookup → s.rf.pending = none
  /-- Between the halves of a request that started first, the sequencer is still Idle (41_sampling_sequencer R131). -/
  halfIdle : s.main.half = .statePending → s.st = .idle
  /-- The main flow does not end between the halves of a request (10_state R43). -/
  doneWhole : s.main.done = true → s.main.half = .none
  /-- The converter's fields fit their widths, where the configuration's constants do (10_state R30 to R32; log 7). -/
  fieldsFit : s.cfg.fits = true →
    s.conv.gain < 2 ^ s.cfg.wGain ∧ s.conv.fdly < 2 ^ s.cfg.wFdly ∧ s.conv.clk < 2 ^ s.cfg.wClk
  /-- Data memory is canonical and holds nothing but reply bytes (log 8). -/
  memory : MemoryInv s

/-! Final and stuck states, runs and fairness (70_reset_and_hazards R256, 60_exceptions R225). -/

/-- A final state (70_reset_and_hazards R256). -/
structure Final (s : State) : Prop where
  ended : s.main.done = true
  ctx : s.cpu.ctx = .main
  noFrame : s.frame = none
  noEntry : s.entryEnabled = false
  noFlight : s.conv.sc = false
  notPending : s.rf.pending = none
  phaseIdle : s.rf.phase = .idle
  unmarked : Unmarked s

/-- The operation has a step here. A refusal is no step of a run: the word names none (30_encoding R83). -/
def Enabled (i : Instr) (s : State) : Prop := ∃ t, exec i s = .next t ∧ t.marks.refused = none

/-- No agent but the host has a step, and the state is not final (70_reset_and_hazards R256; that the host's steps are
left out is DEDUCED from 95_test_vectors P4, log 23; safe). -/
def Stuck (s : State) : Prop := ¬ Final s ∧ ∀ i : Instr, i.wellFormed = true → i.agent ≠ .host → ¬ Enabled i s

/-- An infinite run: the states and the operations between them (30_encoding R87). -/
def IsRun (σ : Nat → State) (ev : Nat → Instr) : Prop := ∀ n, exec (ev n) (σ n) = .next (σ (n + 1))

/-- A weakly fair run (60_exceptions R225, 40_converter_control R110). It is a property of runs; `step` does not
impose it (log 20). -/
structure WeaklyFair (σ : Nat → State) (ev : Nat → Instr) : Prop where
  /-- A converter entry that stays enabled is eventually taken. -/
  convEntry : ∀ c n, (∀ m, n ≤ m → EntryReady (σ m) ∧ InCauses (σ m).conv c) →
    ∃ m, n ≤ m ∧ ev m = .convIrqEntry c
  /-- An RF entry that stays enabled is eventually taken. -/
  rfEntry : ∀ n, (∀ m, n ≤ m → EntryReady (σ m) ∧ (σ m).rf.pending ≠ none) → ∃ m, n ≤ m ∧ ev m = .rfIrqEntry
  /-- A handler that has begun eventually returns, unless a mark is set. -/
  handler : ∀ n, (σ n).cpu.ctx ≠ .main → ∃ m, n ≤ m ∧ ((σ m).cpu.ctx = .main ∨ ¬ Unmarked (σ m))
  /-- A conversion in flight eventually ends. -/
  conversion : ∀ n, (σ n).conv.en = true → (σ n).conv.sc = true → ∃ m, n ≤ m ∧ (σ m).conv.sc = false

end Sys2Proof.Machine
end

