-- ==== Sys2Proof/Certificates/Slice0/Obligations.lean ====
section
/-! DEFINITION. The statements for the provers, one per entry of OBLIGATIONS.json. `NoStep`, `Faulted`, `Refused`,
`UnchangedExcept`, `Started` and the readiness conditions are defined in Safety.lean. -/

open Sys2Proof Sys2Proof.Machine

/-! Encoding. -/

/-- Eight words written from 30_encoding R72, R73, R75, R77. -/
def Obligations.SampleWordsDecode : Prop :=
  decode 0x01000000 = .ok .reqCycle ∧ decode 0x10030000 = .ok (.cfgStart .referenceAdc1) ∧
    decode 0x20001234 = .ok (.convDone 0x1234) ∧ decode 0x30020000 = .ok (.convIrqEntry .complete) ∧
    decode 0x05010000 = .ok (.readSample .slot1) ∧ decode 0x400000C0 = .ok (.rfFrame 0x00C0) ∧
    decode 0x47010000 = .ok (.rfReturn true) ∧ decode 0x30030000 = .error .reservedCode

/-- Every well-formed operation is what its word decodes to (30_encoding R70 to R75, R77). -/
def Obligations.DecodeOfEncode : Prop := ∀ i : Instr, i.wellFormed = true → decode (encode i) = .ok i

/-- A word that decodes names a well-formed operation and is that operation's word: no two words name one operation, and
no unused bit is free (30_encoding R71, R73). -/
def Obligations.EncodeOfDecode : Prop :=
  ∀ (w : EventWord) (i : Instr), decode w = .ok i → i.wellFormed = true ∧ encode i = w

/-- 30_encoding R82: an `op` outside the map of R72 is reserved, and a word that is no well-formed operation's is refused
with BadOperation. -/
def Obligations.UnnamedWordsAreRefused : Prop :=
  (∀ w : EventWord,
      opField w ∉
          ([0x01, 0x02, 0x03, 0x04, 0x05, 0x06, 0x0F, 0x10, 0x11, 0x12, 0x13, 0x20, 0x21, 0x22, 0x30, 0x31, 0x32, 0x33,
            0x34, 0x40, 0x41, 0x42, 0x43, 0x44, 0x45, 0x46, 0x47, 0xFF] : List (BitVec 8)) →
        ∀ i : Instr, i.wellFormed = true → encode i ≠ w) ∧
    ∀ (s : State) (w : EventWord) (rest : List EventWord), s.sched = w :: rest → Unmarked s →
      (∀ i : Instr, i.wellFormed = true → encode i ≠ w) → Refused { s with sched := rest } .badOperation (step s)

/-- A step takes the schedule's head word and, where it decodes, is `exec` of it (30_encoding R87; log 1). -/
def Obligations.StepRunsDecodedWord : Prop :=
  (∀ (s : State) (w : EventWord) (rest : List EventWord) (i : Instr), s.sched = w :: rest → decode w = .ok i →
      step s = exec i { s with sched := rest }) ∧
    ∀ (s : State) (i : Instr), i.wellFormed = true → step (s.withFetchWord 32 (encode i).toNat) = exec i s

/-! The whole machine. -/

/-- The machine right after reset (70_reset_and_hazards R240, R241, R243): the main flow may take its first operation,
interrupts are masked, nothing is written, started or pending, and the Converter has no step. That the configuration
passes RESET's checks is the model's choice (log 5); the drawn fields may have any value (log 6). -/
def Obligations.PowerUpState : Prop :=
  MainReady State.reset ∧ State.reset.cpu.gie = false ∧ State.reset.st = .idle ∧ State.reset.buf = ⟨none, none⟩ ∧
    State.reset.frame = none ∧ State.reset.rf = ⟨none, .idle⟩ ∧ State.reset.reply = ⟨none, none⟩ ∧
    State.reset.cfg.refusal = none ∧ State.reset.cfg.fits = true ∧
    ∃ ch g f k v,
      State.reset.conv = ⟨false, false, ch, g, f, k, false, false, false, false, false, v⟩ ∧
        g < 2 ^ State.reset.cfg.wGain ∧ f < 2 ^ State.reset.cfg.wFdly ∧ k < 2 ^ State.reset.cfg.wClk ∧
        (∀ i : Instr, i.agent = .converter → NoStep (exec i State.reset)) ∧
        ∀ c, NoStep (exec (.convIrqEntry c) State.reset)

/-- The invariant holds right after reset. -/
def Obligations.ResetStateHasInv : Prop := Inv State.reset

/-- Every step keeps the invariant, whatever the schedule presents. -/
def Obligations.StepKeepsInv : Prop := ∀ s t : State, Inv s → step s = .next t → Inv t

/-- 41_sampling_sequencer R144, step by step: unless the word is RESET, `st` stays or moves one place round the cycle. -/
def Obligations.SequencerFollowsCycle : Prop :=
  ∀ s t : State, Inv s → step s = .next t → (∀ w rest, s.sched = w :: rest → decode w ≠ .ok .reset) →
    t.st = s.st ∨ (s.st = .idle ∧ t.st = .awaitingReference) ∨
      (s.st = .awaitingReference ∧ t.st = .awaitingThermistor) ∨ (s.st = .awaitingThermistor ∧ t.st = .idle)

/-- `st` is written only by a request, its second half, ISR_COMPLETE, and RESET (10_state R22). -/
def Obligations.OnlyCycleOperationsWriteSt : Prop :=
  ∀ (i : Instr) (s t : State), exec i s = .next t → t.st ≠ s.st →
    i = .reqCycle ∨ i = .reqFinish ∨ (∃ d, i = .isrComplete d) ∨ i = .reset

/-- 41_sampling_sequencer R146. -/
def Obligations.OverflowArmLeavesStAndBuf : Prop :=
  ∀ s t : State, exec .isrOverflow s = .next t → t.st = s.st ∧ t.buf = s.buf

/-- 60_exceptions R205: a marked state has no step but RESET, which clears the marks where the configuration passes its
checks. -/
def Obligations.MarkedStateStepsOnlyByReset : Prop :=
  ∀ s : State, ¬ Unmarked s →
    (∀ i : Instr, i ≠ .reset → NoStep (exec i s)) ∧
      (s.cfg.refusal = none → ∃ t, exec .reset s = .next t ∧ Unmarked t)

/-- 60_exceptions R214: a step that sets a mark writes nothing else. -/
def Obligations.MarkingWritesOnlyTheMark : Prop :=
  ∀ (i : Instr) (s t : State), exec i s = .next t →
    (s.marks.fault = none ∧ t.marks.fault ≠ none) ∨ (s.marks.refused = none ∧ t.marks.refused ≠ none) →
      t = { s with marks := t.marks }

/-- No operation writes the configuration (10_state R47), nor the words still to come (log 1). -/
def Obligations.ConfigurationIsNeverWritten : Prop :=
  ∀ (i : Instr) (s t : State), exec i s = .next t → t.cfg = s.cfg ∧ t.sched = s.sched

/-! Converter control. -/

/-- CFG_START with no conversion in flight (40_converter_control R102), from any running software context; it has no step
where none runs (log 10). -/
def Obligations.CfgStartStartsConversion : Prop :=
  ∀ (ch : Channel) (s : State),
    (¬ SoftwareReady s → NoStep (exec (.cfgStart ch) s)) ∧
      (SoftwareReady s → s.conv.sc = false →
        ∃ t, exec (.cfgStart ch) s = .next t ∧ Started s.cfg ch s.conv t.conv ∧ UnchangedExcept [.conv] s t)

/-- 40_converter_control R111. -/
def Obligations.CfgStartWithoutFaultConfigures : Prop :=
  ∀ (ch : Channel) (s t : State), exec (.cfgStart ch) s = .next t → t.marks.fault = none →
    t.conv.en = true ∧ t.conv.sc = true ∧ t.conv.ch = ch ∧ t.conv.gain = s.cfg.cfgGain ∧
      t.conv.fdly = s.cfg.cfgFdly ∧ t.conv.clk = s.cfg.cfgClk ∧ t.conv.bias = true

/-- CFG_START with a conversion in flight, for the same channel too (40_converter_control R102; context as log 10). -/
def Obligations.CfgStartWhileBusyFaults : Prop :=
  ∀ (ch : Channel) (s : State), SoftwareReady s → s.conv.sc = true →
    Faulted s .converterBusy (exec (.cfgStart ch) s)

/-- CONV_DISABLE (40_converter_control R103; context, and no step outside it, as log 10): the converter is disabled and a
conversion in flight aborted, so none completes or overflows. -/
def Obligations.ConvDisableAborts : Prop :=
  ∀ s : State,
    (¬ SoftwareReady s → NoStep (exec .convDisable s)) ∧
      (SoftwareReady s →
        ∃ t, exec .convDisable s = .next t ∧ t.conv = { s.conv with en := false, sc := false } ∧
          UnchangedExcept [.conv] s t ∧ ∀ i : Instr, i.agent = .converter → NoStep (exec i t))

/-- RESULT_READ standing alone (40_converter_control R104; context, and no step outside it, as log 10): only IFG is
written, whatever `d` is. -/
def Obligations.ResultReadClearsIfg : Prop :=
  ∀ (d : Word) (s : State),
    (¬ SoftwareReady s → NoStep (exec (.resultRead d) s)) ∧
      (SoftwareReady s →
        ∃ t, exec (.resultRead d) s = .next t ∧ t.conv = { s.conv with ifg := false } ∧ UnchangedExcept [.conv] s t)

/-- OV_CLEAR (40_converter_control R105; context, and no step outside it, as log 10): only OVIFG is written. -/
def Obligations.OvClearClearsOvifg : Prop :=
  ∀ s : State,
    (¬ SoftwareReady s → NoStep (exec .ovClear s)) ∧
      (SoftwareReady s →
        ∃ t, exec .ovClear s = .next t ∧ t.conv = { s.conv with ovifg := false } ∧ UnchangedExcept [.conv] s t)

/-- 40_converter_control R107. -/
def Obligations.ConvDoneLatchesResult : Prop :=
  ∀ v : Word,
    encode (.convDone v) = 0x20000000#32 ||| v.setWidth 32 ∧
      (∀ s : State, ¬ (Unmarked s ∧ s.conv.en = true ∧ s.conv.sc = true) → NoStep (exec (.convDone v) s)) ∧
      ∀ s : State, Unmarked s → s.conv.en = true → s.conv.sc = true →
        ∃ t, exec (.convDone v) s = .next t ∧ t.conv = { s.conv with result := v, ifg := true, sc := false } ∧
          UnchangedExcept [.conv] s t

/-- 40_converter_control R108. -/
def Obligations.ConvOvfEndDropsSample : Prop :=
  encode .convOvfEnd = 0x21000000 ∧
    (∀ s : State, ¬ (Unmarked s ∧ s.conv.en = true ∧ s.conv.sc = true) → NoStep (exec .convOvfEnd s)) ∧
    ∀ s : State, Unmarked s → s.conv.en = true → s.conv.sc = true →
      ∃ t, exec .convOvfEnd s = .next t ∧ t.conv = { s.conv with ovifg := true, sc := false } ∧
        UnchangedExcept [.conv] s t

/-- 40_converter_control R109. -/
def Obligations.ConvOvfFlagsOverflow : Prop :=
  encode .convOvf = 0x22000000 ∧
    (∀ s : State, ¬ (Unmarked s ∧ s.conv.en = true ∧ s.cfg.ovfSpurious = true) → NoStep (exec .convOvf s)) ∧
    ∀ s : State, Unmarked s → s.conv.en = true → s.cfg.ovfSpurious = true →
      ∃ t, exec .convOvf s = .next t ∧ t.conv = { s.conv with ovifg := true } ∧ UnchangedExcept [.conv] s t

/-- The Converter agent has these three steps and none while CONV.EN = 0 (40_converter_control R110). -/
def Obligations.DisabledConverterIsSilent : Prop :=
  ∀ i : Instr, i.agent = .converter →
    ((∃ v, i = .convDone v) ∨ i = .convOvfEnd ∨ i = .convOvf) ∧ ∀ s : State, s.conv.en = false → NoStep (exec i s)

/-! The main flow. -/

/-- REQ_CYCLE where it raises no fault whatever the draw (41_sampling_sequencer R131): under a fixed order that order,
under Any one of the three. `ReqCycleFaults` has the rest. -/
def Obligations.ReqCycleStartsReference : Prop :=
  ∀ s : State, MainReady s → s.st = .idle →
    (s.conv.sc = false ∨ s.cfg.reqCycleOrder = .always .stateFirst) →
      ∃ o t, exec .reqCycle s = .next t ∧ (∀ p, s.cfg.reqCycleOrder = .always p → o = p) ∧
        UnchangedExcept [.st, .conv, .main] s t ∧ t.main.done = s.main.done ∧
        (o = .atomic →
          t.st = .awaitingReference ∧ Started s.cfg .referenceAdc1 s.conv t.conv ∧ t.main.half = .none) ∧
        (o = .stateFirst → t.st = .awaitingReference ∧ t.conv = s.conv ∧ t.main.half = .startPending) ∧
        (o = .startFirst →
          t.st = .idle ∧ Started s.cfg .referenceAdc1 s.conv t.conv ∧ t.main.half = .statePending)

/-- REQ_CYCLE outside Idle, and in Idle with a conversion in flight (41_sampling_sequencer R131): SecondCycle comes
before ConverterBusy (60_exceptions R211), in the reserved code too (DEDUCED, log 12); under Any the draw decides between
ConverterBusy and the first half of StateFirst, which starts no conversion. -/
def Obligations.ReqCycleFaults : Prop :=
  ∀ s : State, MainReady s →
    (s.st ≠ .idle → Faulted s .secondCycle (exec .reqCycle s)) ∧
      (s.st = .idle → s.conv.sc = true → ∀ p, s.cfg.reqCycleOrder = .always p → p ≠ .stateFirst →
        Faulted s .converterBusy (exec .reqCycle s)) ∧
      (s.st = .idle → s.conv.sc = true → s.cfg.reqCycleOrder = .any →
        Faulted s .converterBusy (exec .reqCycle s) ∨
          ∃ t, exec .reqCycle s = .next t ∧ t.st = .awaitingReference ∧
            t.main = { s.main with half := .startPending } ∧ UnchangedExcept [.st, .main] s t)

/-- REQ_FINISH (41_sampling_sequencer R142). -/
def Obligations.ReqFinishCompletesRequest : Prop :=
  ∀ s : State, FinishReady s →
    (s.main.half = .startPending → s.conv.sc = false →
      ∃ t, exec .reqFinish s = .next t ∧ Started s.cfg .referenceAdc1 s.conv t.conv ∧
        t.main = { s.main with half := .none } ∧ UnchangedExcept [.conv, .main] s t) ∧
      (s.main.half = .startPending → s.conv.sc = true → Faulted s .converterBusy (exec .reqFinish s)) ∧
      (s.main.half = .statePending →
        ∃ t, exec .reqFinish s = .next t ∧ t.st = .awaitingReference ∧ t.main = { s.main with half := .none } ∧
          UnchangedExcept [.st, .main] s t) ∧
      (s.main.half = .none → NoStep (exec .reqFinish s))

/-- 41_sampling_sequencer R132: both bits in one step, and the main flow then has no step. -/
def Obligations.SleepSetsBothBits : Prop :=
  encode .sleep = 0x02000000 ∧ (∀ s : State, ¬ MainReady s → NoStep (exec .sleep s)) ∧
    ∀ s : State, MainReady s →
      ∃ t, exec .sleep s = .next t ∧ t.cpu = { s.cpu with gie := true, lpm := true } ∧ UnchangedExcept [.cpu] s t ∧
        ∀ i : Instr, i.agent = .main → NoStep (exec i t)

/-- 41_sampling_sequencer R143. -/
def Obligations.EnableIntSetsGie : Prop :=
  encode .enableInt = 0x03000000 ∧ (∀ s : State, ¬ MainReady s → NoStep (exec .enableInt s)) ∧
    ∀ s : State, MainReady s →
      ∃ t, exec .enableInt s = .next t ∧ t.cpu = { s.cpu with gie := true } ∧ UnchangedExcept [.cpu] s t

/-- 41_sampling_sequencer R139. -/
def Obligations.CalibrateChangesNothing : Prop :=
  encode .calibrate = 0x04000000 ∧ (∀ s : State, ¬ MainReady s → NoStep (exec .calibrate s)) ∧
    ∀ s : State, MainReady s → exec .calibrate s = .next s

/-- 41_sampling_sequencer R141, with 10_state R43: after END no operation of agent Main steps. -/
def Obligations.EndStopsMainFlow : Prop :=
  encode .endMain = 0x0F000000 ∧ (∀ s : State, ¬ MainReady s → NoStep (exec .endMain s)) ∧
    ∀ s : State, MainReady s →
      ∃ t, exec .endMain s = .next t ∧ t.main = { s.main with done := true } ∧ UnchangedExcept [.main] s t ∧
        ∀ i : Instr, i.agent = .main → NoStep (exec i t)

/-- 10_state R25: reading an unwritten slot faults, reading a written one outputs its value, in any sequencer state. -/
def Obligations.ReadSampleOutputsSlot : Prop :=
  ∀ (i : Slot) (s : State), MainReady s →
    (s.slot i = none → Faulted s .unwrittenSample (exec (.readSample i) s)) ∧
      ∀ v, s.slot i = some v →
        ∃ t, exec (.readSample i) s = .next t ∧ t.outputs = s.outputs ++ [(i, v)] ∧ UnchangedExcept [.outputs] s t

/-- 30_encoding R83: main-flow operations and interrupt entries wait, and a handler's operation in another context is
refused. -/
def Obligations.ContextLegality : Prop :=
  (∀ (i : Instr) (s : State), i.agent = .main → s.cpu.ctx ≠ .main ∨ s.cpu.lpm = true → NoStep (exec i s)) ∧
    (∀ s : State, s.cpu.ctx ≠ .main ∨ s.cpu.gie = false →
      (∀ c, NoStep (exec (.convIrqEntry c) s)) ∧ NoStep (exec .rfIrqEntry s)) ∧
    ∀ (i : Instr) (s : State) (x : Ctx), handlerCtx i = some x → Unmarked s → s.cpu.ctx ≠ x →
      Refused s .wrongContext (exec i s)

/-- Between the halves of a request, and after END, no operation of agent Main other than REQ_FINISH steps
(10_state R43). -/
def Obligations.SplitRequestBlocksMainFlow : Prop :=
  ∀ (i : Instr) (s : State), i.agent = .main → i ≠ .reqFinish → s.main.half ≠ .none ∨ s.main.done = true →
    NoStep (exec i s)

/-! The converter interrupt. -/

/-- The AwaitingReference arm (41_sampling_sequencer R134), and the fault it raises on a stale completion
(70_reset_and_hazards R252). The value stored is the last result. -/
def Obligations.IsrCompleteStoresReference : Prop :=
  ∀ (d : Word) (s : State) (f : Saved), HandlerReady s .convISR → s.frame = some f → f.cause = .complete →
    f.served = false → s.st = .awaitingReference →
      (s.conv.sc = false →
        ∃ t, exec (.isrComplete d) s = .next t ∧ t.buf = { s.buf with slot0 := some s.conv.result } ∧
          Started s.cfg .thermistorAdc2 { s.conv with ifg := false } t.conv ∧ t.st = .awaitingThermistor ∧
          t.frame = some { f with served := true } ∧ UnchangedExcept [.buf, .conv, .st, .frame] s t) ∧
        (s.conv.sc = true → Faulted s .converterBusy (exec (.isrComplete d) s))

/-- The AwaitingThermistor arm (41_sampling_sequencer R135): the value stored is `d` where the read finds a conversion in
flight (40_converter_control R104), the last result otherwise. -/
def Obligations.IsrCompleteFinishesCycle : Prop :=
  ∀ (d : Word) (s : State) (f : Saved), HandlerReady s .convISR → s.frame = some f → f.cause = .complete →
    f.served = false → s.st = .awaitingThermistor →
      ∃ t, exec (.isrComplete d) s = .next t ∧
        t.buf = { s.buf with slot1 := some (if s.conv.sc = true then d else s.conv.result) } ∧
        t.conv = { s.conv with ifg := false, en := false, sc := false } ∧ t.st = .idle ∧
        t.frame = some { f with lpm := false, served := true } ∧ UnchangedExcept [.buf, .conv, .st, .frame] s t

/-- The Idle arm (41_sampling_sequencer R136), the reserved code (R133, 30_encoding R76), and the refusal of an arm for a
cause not being served (R133). -/
def Obligations.IsrCompleteOutsideCycle : Prop :=
  ∀ (d : Word) (s : State), HandlerReady s .convISR →
    (∀ f, s.frame = some f → f.cause = .complete → f.served = false →
      (s.st = .idle → s.cfg.idleCompletion = .discard →
        ∃ t, exec (.isrComplete d) s = .next t ∧ t.conv = { s.conv with ifg := false } ∧
          t.frame = some { f with served := true } ∧ UnchangedExcept [.conv, .frame] s t) ∧
        (s.st = .idle → s.cfg.idleCompletion = .fault → Faulted s .idleCompletion (exec (.isrComplete d) s)) ∧
        (s.st = .reserved → Faulted s .illegalState (exec (.isrComplete d) s))) ∧
      ((∀ f, s.frame = some f → f.cause ≠ .complete ∨ f.served = true) →
        Refused s .wrongContext (exec (.isrComplete d) s))

/-- 41_sampling_sequencer R137. -/
def Obligations.IsrOverflowClearsOvifg : Prop :=
  encode .isrOverflow = 0x32000000 ∧
    ∀ s : State, HandlerReady s .convISR →
      (∀ f, s.frame = some f → f.cause = .overflow → f.served = false →
        ∃ t, exec .isrOverflow s = .next t ∧ t.conv = { s.conv with ovifg := false } ∧
          t.frame = some { f with served := true } ∧ UnchangedExcept [.conv, .frame] s t) ∧
        ((∀ f, s.frame = some f → f.cause ≠ .overflow ∨ f.served = true) →
          Refused s .wrongContext (exec .isrOverflow s))

/-- 41_sampling_sequencer R138. -/
def Obligations.WakeClearsSavedLpm : Prop :=
  encode .wake = 0x34000000 ∧ (∀ s : State, s.cpu.ctx = .convISR → s.frame = none → NoStep (exec .wake s)) ∧
    ∀ (s : State) (f : Saved), HandlerReady s .convISR → s.frame = some f →
      ∃ t, exec .wake s = .next t ∧ t.frame = some { f with lpm := false } ∧ UnchangedExcept [.frame] s t

/-- 60_exceptions R212. -/
def Obligations.ConvIrqEntrySavesFrame : Prop :=
  encode (.convIrqEntry .overflow) = 0x30010000 ∧ encode (.convIrqEntry .complete) = 0x30020000 ∧
    ∀ (c : Cause) (s : State),
      (¬ (EntryReady s ∧ InCauses s.conv c) → NoStep (exec (.convIrqEntry c) s)) ∧
        (EntryReady s → InCauses s.conv c →
          ∃ t, exec (.convIrqEntry c) s = .next t ∧
            t.frame = some { lpm := s.cpu.lpm, gie := s.cpu.gie, cause := c, served := false } ∧
            t.cpu = { gie := false, lpm := false, ctx := .convISR } ∧ UnchangedExcept [.frame, .cpu] s t)

/-- 60_exceptions R213. -/
def Obligations.RetiRestoresSavedBits : Prop :=
  encode .reti = 0x33000000 ∧
    ∀ (s : State) (f : Saved), HandlerReady s .convISR → s.frame = some f →
      (f.served = true →
        ∃ t, exec .reti s = .next t ∧ t.cpu = { gie := f.gie, lpm := f.lpm, ctx := .main } ∧ t.frame = none ∧
          UnchangedExcept [.frame, .cpu] s t) ∧
        (f.served = false → Refused s .wrongContext (exec .reti s))

/-! The RF side. -/

/-- 42_dispatch R161. -/
def Obligations.RfFrameIsPending : Prop :=
  ∀ id : Word,
    encode (.rfFrame id) = 0x40000000#32 ||| id.setWidth 32 ∧
      (∀ s : State, ¬ (Unmarked s ∧ s.rf.pending = none ∧ s.rf.phase = .idle) → NoStep (exec (.rfFrame id) s)) ∧
      ∀ s : State, Unmarked s → s.rf.pending = none → s.rf.phase = .idle →
        ∃ t, exec (.rfFrame id) s = .next t ∧ t.rf = ⟨some id, .idle⟩ ∧ UnchangedExcept [.rf] s t

/-- 42_dispatch R162. -/
def Obligations.RfIrqEntrySavesFrame : Prop :=
  encode .rfIrqEntry = 0x41000000 ∧
    ∀ s : State,
      (¬ (EntryReady s ∧ s.rf.pending ≠ none) → NoStep (exec .rfIrqEntry s)) ∧
        (EntryReady s → s.rf.pending ≠ none →
          ∃ t, exec .rfIrqEntry s = .next t ∧
            t.frame = some { lpm := s.cpu.lpm, gie := s.cpu.gie, cause := .rf, served := false } ∧
            t.cpu = { gie := false, lpm := false, ctx := .rfISR } ∧ t.rf = { s.rf with phase := .lookup } ∧
            UnchangedExcept [.frame, .cpu, .rf] s t)

/-- 42_dispatch R170: the one configured entry, and its lookup. That data memory holds nothing but the reply is part of
the invariant. -/
def Obligations.LookupFindsConfiguredCommand : Prop :=
  ∀ c : Config, c.refusal = none → c.dtImage = c.oneEntryImage →
    c.commandIds.zip c.handlerAddrs = [(c.cmdId, c.handlerAddr)] ∧
      ∀ s : State, s.cfg = c → MemoryInv s → HandlerReady s .rfISR → s.rf.phase = .lookup →
        s.rf.pending = some c.cmdId →
          ∃ t, exec .dtLookup s = .next t ∧ t.rf = ⟨none, .invoke c.handlerAddr⟩ ∧ UnchangedExcept [.rf] s t

/-- Any other id, the key itself among them, is not found, and nothing but `rf` is written (42_dispatch R163, R169); in
another phase than Lookup there is no step, whatever is pending (R163, log 16). -/
def Obligations.LookupOfOtherIdFindsNothing : Prop :=
  ∀ s : State, HandlerReady s .rfISR →
    (s.rf.phase ≠ .lookup → NoStep (exec .dtLookup s)) ∧
      ∀ id : Word, s.cfg.refusal = none → s.cfg.dtImage = s.cfg.oneEntryImage → MemoryInv s →
        s.rf.phase = .lookup → s.rf.pending = some id → id ≠ s.cfg.cmdId →
          ∃ t, exec .dtLookup s = .next t ∧ t.rf = ⟨none, .done⟩ ∧ UnchangedExcept [.rf] s t

/-- 42_dispatch R164. -/
def Obligations.InvokeEntersHandler : Prop :=
  encode .dtInvoke = 0x43000000 ∧
    ∀ s : State, HandlerReady s .rfISR →
      (s.rf.phase = .invoke s.cfg.handlerAddr →
        ∃ t, exec .dtInvoke s = .next t ∧ t.rf = { s.rf with phase := .start } ∧ UnchangedExcept [.rf] s t) ∧
        (∀ a, s.rf.phase = .invoke a → a ≠ s.cfg.handlerAddr → Refused s .unknownHandler (exec .dtInvoke s)) ∧
        ((∀ a, s.rf.phase ≠ .invoke a) → NoStep (exec .dtInvoke s))

/-- 42_dispatch R165. -/
def Obligations.CustomStartConverts : Prop :=
  encode .customStart = 0x44000000 ∧
    ∀ s : State, HandlerReady s .rfISR →
      (s.rf.phase = .start → s.conv.sc = false →
        ∃ t, exec .customStart s = .next t ∧ Started s.cfg s.cfg.customCh s.conv t.conv ∧
          t.rf = { s.rf with phase := .wait } ∧ UnchangedExcept [.conv, .rf] s t) ∧
        (s.rf.phase = .start → s.conv.sc = true → Faulted s .converterBusy (exec .customStart s)) ∧
        (s.rf.phase ≠ .start → NoStep (exec .customStart s))

/-- CUSTOM_FINISH (42_dispatch R167): it has no step outside phase Wait (log 16), and with DELAY_SUFFICIENT it waits for
the conversion's end; under a configuration RESET has checked the reply is written at REPLY_BASE and the converter is left
enabled. -/
def Obligations.CustomFinishReplies : Prop :=
  ∀ (d : Word) (s : State), HandlerReady s .rfISR →
    (s.rf.phase ≠ .wait → NoStep (exec (.customFinish d) s)) ∧
      (s.cfg.delaySufficient = true → s.conv.sc = true → NoStep (exec (.customFinish d) s)) ∧
      (s.cfg.refusal = none → s.rf.phase = .wait → s.cfg.delaySufficient = false ∨ s.conv.sc = false →
        ∃ t, exec (.customFinish d) s = .next t ∧
          t.reply = ⟨some s.cfg.replyLenWord, some (if s.conv.sc = true then d else s.conv.result)⟩ ∧
          t.conv = { s.conv with ifg := false } ∧ t.rf = { s.rf with phase := .done } ∧
          (∀ a, a < s.cfg.replyBase.toNat ∨ s.cfg.replyBase.toNat + 4 ≤ a → t.readByte a = s.readByte a) ∧
          UnchangedExcept [.conv, .rf, .mem] s t)

/-- REPLY_WRITE (42_dispatch R166, 20_memory R52), under a configuration RESET has checked: the length word and the value,
byte by byte in either byte order, at REPLY_BASE, and no other byte. -/
def Obligations.ReplyWriteStoresTwoWords : Prop :=
  ∀ (v : Word) (s : State), HandlerReady s .rfISR → s.cfg.refusal = none →
    ∃ t, exec (.replyWrite v) s = .next t ∧ t.reply = ⟨some s.cfg.replyLenWord, some v⟩ ∧
      (s.cfg.byteOrder = .little →
        t.readByte (s.cfg.replyBase.toNat + 2) = some (v.setWidth 8) ∧
          t.readByte (s.cfg.replyBase.toNat + 3) = some ((v >>> 8).setWidth 8)) ∧
      (s.cfg.byteOrder = .big →
        t.readByte (s.cfg.replyBase.toNat + 2) = some ((v >>> 8).setWidth 8) ∧
          t.readByte (s.cfg.replyBase.toNat + 3) = some (v.setWidth 8)) ∧
      (∀ a, a < s.cfg.replyBase.toNat ∨ s.cfg.replyBase.toNat + 4 ≤ a → t.readByte a = s.readByte a) ∧
      UnchangedExcept [.mem] s t

/-- 42_dispatch R168. -/
def Obligations.RfReturnRestoresSavedBits : Prop :=
  encode (.rfReturn false) = 0x47000000 ∧ encode (.rfReturn true) = 0x47010000 ∧
    ∀ (w : Bool) (s : State), HandlerReady s .rfISR →
      (s.rf.phase ≠ .done ∨ (w = true ∧ s.cfg.rfIsrMayWake = false) → NoStep (exec (.rfReturn w) s)) ∧
        ∀ f, s.frame = some f → s.rf.phase = .done → w = false ∨ s.cfg.rfIsrMayWake = true →
          ∃ t, exec (.rfReturn w) s = .next t ∧
            t.cpu = { gie := f.gie, lpm := if w = true then false else f.lpm, ctx := .main } ∧ t.frame = none ∧
            t.rf = { s.rf with phase := .idle } ∧ UnchangedExcept [.frame, .cpu, .rf] s t

/-! Reset. -/

/-- RESET under a configuration that passes the checks, from every state, a marked one too: every component has its reset
value (70_reset_and_hazards R240). The drawn fields may have any value; the model's schedule and outputs go on (log 17). -/
def Obligations.ResetRestoresEveryComponent : Prop :=
  ∀ s : State, s.cfg.refusal = none →
    ∃ t, exec .reset s = .next t ∧ t.st = .idle ∧ t.buf = ⟨none, none⟩ ∧ t.conv.en = false ∧ t.conv.sc = false ∧
      t.conv.bias = false ∧ t.conv.ie = false ∧ t.conv.ovie = false ∧ t.conv.ifg = false ∧ t.conv.ovifg = false ∧
      t.cpu = { gie := false, lpm := false, ctx := .main } ∧ t.frame = none ∧ t.main = ⟨.none, false⟩ ∧
      t.rf = ⟨none, .idle⟩ ∧ t.reply = ⟨none, none⟩ ∧ t.marks = ⟨none, none⟩ ∧
      UnchangedExcept [.st, .buf, .conv, .cpu, .frame, .main, .rf, .mem, .marks] s t

/-- RESET's checks and the first reason reported (70_reset_and_hazards R240, 30_encoding R80, 20_memory R51, R53, R58):
a refused configuration sets the mark alone. -/
def Obligations.ResetChecksConfiguration : Prop :=
  ∀ s : State, s.marks.refused = none →
    ((s.cfg.dtImage[0]? ≠ some s.cfg.dtKey ∨ s.cfg.dtImage[3]? ≠ some s.cfg.dtKey ∨
        s.cfg.dtImage[1]? = some s.cfg.dtKey ∨ s.cfg.dtImage[2]? ≠ some s.cfg.handlerAddr ∨ s.cfg.dtMax < 1) →
      Refused s .illFormedTable (exec .reset s)) ∧
      (s.cfg.imageWellFormed = true → s.cfg.dtBase.toNat % 2 = 1 ∨ s.cfg.replyBase.toNat % 2 = 1 →
        Refused s .misaligned (exec .reset s)) ∧
      (s.cfg.imageWellFormed = true → s.cfg.dtBase.toNat % 2 = 0 → s.cfg.replyBase.toNat % 2 = 0 →
        65536 < s.cfg.dtBase.toNat + 8 ∨ 65536 < s.cfg.replyBase.toNat + 4 →
          Refused s .addressWrap (exec .reset s)) ∧
      (s.cfg.imageWellFormed = true → s.cfg.dtBase.toNat % 2 = 0 → s.cfg.replyBase.toNat % 2 = 0 →
        s.cfg.dtBase.toNat + 8 ≤ 65536 → s.cfg.replyBase.toNat + 4 ≤ 65536 →
          s.cfg.replyBase.toNat < s.cfg.dtBase.toNat + 8 → s.cfg.dtBase.toNat < s.cfg.replyBase.toNat + 4 →
            Refused s .overlap (exec .reset s))

/-! Isolation, hazards and runs. -/

/-- No RF-side operation reads or writes `st` or `buf`, and it writes the converter only as configure_and_start or a
result read does (42_dispatch R171). -/
def Obligations.RfSideIsBlindToSequencer : Prop :=
  ∀ (i : Instr) (s : State), rfSide i = true →
    (∀ (st : SampleState) (buf : Samples),
      exec i { s with st := st, buf := buf } = mapNext (fun t => { t with st := st, buf := buf }) (exec i s)) ∧
      ∀ t, exec i s = .next t →
        t.st = s.st ∧ t.buf = s.buf ∧
          (t.conv = s.conv ∨ t.conv = { s.conv with ifg := false } ∨ ∃ ch, Started s.cfg ch s.conv t.conv)

/-- The Converter's steps and the frame's delivery write only CONV's flags, SC and RESULT, and rf.pending (20_memory R62).
RESET is the host's too, and is not such a step. -/
def Obligations.ConverterAndFrameStepsAreConfined : Prop :=
  (∀ (i : Instr) (s t : State), i.agent = .converter → exec i s = .next t →
      t.conv =
          { s.conv with ifg := t.conv.ifg, ovifg := t.conv.ovifg, sc := t.conv.sc, result := t.conv.result } ∧
        UnchangedExcept [.conv] s t) ∧
    ∀ (id : Word) (s t : State), exec (.rfFrame id) s = .next t →
      t.rf.phase = s.rf.phase ∧ UnchangedExcept [.rf] s t

/-- ISR_COMPLETE does not read CONV.OVIFG and ISR_OVERFLOW does not read CONV.IFG: with the flag set otherwise each gives
the same state but for that flag (60_exceptions R210). -/
def Obligations.CauseServicesDoNotInterfere : Prop :=
  ∀ (s : State) (b : Bool),
    (∀ d : Word,
      mapNext (fun t => { t with conv := { t.conv with ovifg := false } })
          (exec (.isrComplete d) { s with conv := { s.conv with ovifg := b } }) =
        mapNext (fun t => { t with conv := { t.conv with ovifg := false } }) (exec (.isrComplete d) s)) ∧
      mapNext (fun t => { t with conv := { t.conv with ifg := false } })
          (exec .isrOverflow { s with conv := { s.conv with ifg := b } }) =
        mapNext (fun t => { t with conv := { t.conv with ifg := false } }) (exec .isrOverflow s)

/-- A sleeping main flow resumes only by a wake (60_exceptions R224), or by RESET. Asleep with no handler running, every
step leaves it asleep or saves the bit in a frame; while a handler runs only WAKE and the AwaitingThermistor arm clear the
saved bit; and a return to an awake main flow finds it cleared, or clears it itself. -/
def Obligations.SavedLpmClearedOnlyByWake : Prop :=
  (∀ (i : Instr) (s t : State), exec i s = .next t → i ≠ .reset → s.cpu.ctx = .main → s.cpu.lpm = true →
      s.frame = none →
        (t.cpu.ctx = .main ∧ t.cpu.lpm = true ∧ t.frame = none) ∨
          (t.cpu.ctx ≠ .main ∧ ∃ f, t.frame = some f ∧ f.lpm = true)) ∧
    ∀ (i : Instr) (s t : State) (f : Saved), exec i s = .next t → i ≠ .reset → s.frame = some f → f.lpm = true →
      (∀ g, t.frame = some g → g.lpm = false →
        i = .wake ∨ ∃ d, i = .isrComplete d ∧ s.st = .awaitingThermistor) ∧
        (t.frame = none → t.cpu.lpm = true ∨ i = .rfReturn true)

/-- 10_state R24. -/
def Obligations.BufferSlotsWrittenByArms : Prop :=
  ∀ (i : Instr) (s t : State), exec i s = .next t → i ≠ .reset →
    (t.buf.slot0 ≠ s.buf.slot0 → (∃ d, i = .isrComplete d) ∧ s.st = .awaitingReference) ∧
      (t.buf.slot1 ≠ s.buf.slot1 → (∃ d, i = .isrComplete d) ∧ s.st = .awaitingThermistor) ∧
      (s.buf.slot0 ≠ none → t.buf.slot0 ≠ none) ∧ (s.buf.slot1 ≠ none → t.buf.slot1 ≠ none)

/-- Once set, CONV.IE, OVIE and BIAS are cleared by RESET alone (10_state R33 to R35, 60_exceptions R204), and
CONV.RESULT is written by a completing conversion alone (10_state R38). -/
def Obligations.EnablesStayAndResultIsTheConverters : Prop :=
  ∀ (i : Instr) (s t : State), exec i s = .next t → i ≠ .reset →
    (s.conv.ie = true → t.conv.ie = true) ∧ (s.conv.ovie = true → t.conv.ovie = true) ∧
      (s.conv.bias = true → t.conv.bias = true) ∧ (t.conv.result ≠ s.conv.result → i = .convDone t.conv.result)

/-- A lost wake (70_reset_and_hazards R248, 95_test_vectors P4): asleep with the converter disabled, no flag set and the RF
side quiet, the run is stuck. "Stuck" leaves the host's steps out (log 23). -/
def Obligations.LostWakeIsStuck : Prop :=
  ∀ s : State, s.cpu.ctx = .main → s.cpu.lpm = true → s.main.done = false → s.conv.en = false → s.conv.ifg = false →
    s.conv.ovifg = false → s.rf.pending = none → Stuck s

/-- How the conversion in flight at `n` ends in a weakly fair run (40_converter_control R110, 60_exceptions R225): it is in
flight up to the step at `m`, and that step ends it by completing, by overflowing, by a disable, by the AwaitingThermistor
arm, or by RESET. That it ends is R225's assumption, `WeaklyFair.conversion`; which operations can end it is the
model's. -/
def Obligations.FairConversionEnds : Prop :=
  ∀ (σ : Nat → State) (ev : Nat → Instr), IsRun σ ev → WeaklyFair σ ev → ∀ n, (σ n).conv.en = true →
    (σ n).conv.sc = true →
      ∃ m, n ≤ m ∧ (∀ k, n ≤ k → k ≤ m → (σ k).conv.sc = true) ∧ (σ (m + 1)).conv.sc = false ∧
        ((∃ v, ev m = .convDone v) ∨ ev m = .convOvfEnd ∨ ev m = .convDisable ∨
          (∃ d, ev m = .isrComplete d ∧ (σ m).st = .awaitingThermistor) ∨ ev m = .reset)
end

