-- ==== Sys2Proof/Laws/Decode.lean ====
section
/-! SUPPORT. The fields of an assembled word, and a word as its fields (30_encoding R70, R71). -/

namespace Sys2Proof

theorem getLsbD_eventWord (op sel : BitVec 8) (data : Word) (i : Nat) :
    (eventWord op sel data).getLsbD i =
      if i < 16 then data.getLsbD i else if i - 16 < 8 then sel.getLsbD (i - 16) else op.getLsbD (i - 16 - 8) := by
  have h := BitVec.getLsbD_append (x := op ++ sel) (y := data) (i := i)
  rw [BitVec.getLsbD_append (x := op) (y := sel) (i := i - 16)] at h
  exact h

@[simp] theorem opField_eventWord (op sel : BitVec 8) (data : Word) : opField (eventWord op sel data) = op := by
  apply BitVec.eq_of_getLsbD_eq
  intro i hi
  have h1 : ¬ 24 + i < 16 := by omega
  have h2 : ¬ 24 + i - 16 < 8 := by omega
  have h3 : 24 + i - 16 - 8 = i := by omega
  simp [opField, getLsbD_eventWord, h1, h2, h3, hi]

@[simp] theorem selField_eventWord (op sel : BitVec 8) (data : Word) : selField (eventWord op sel data) = sel := by
  apply BitVec.eq_of_getLsbD_eq
  intro i hi
  have h1 : ¬ 16 + i < 16 := by omega
  have h2 : 16 + i - 16 = i := by omega
  simp [selField, getLsbD_eventWord, h1, h2, hi]

@[simp] theorem dataField_eventWord (op sel : BitVec 8) (data : Word) : dataField (eventWord op sel data) = data := by
  apply BitVec.eq_of_getLsbD_eq
  intro i hi
  simp [dataField, getLsbD_eventWord, hi]

/-- A word is its three fields put together. -/
theorem eventWord_fields (w : EventWord) : eventWord (opField w) (selField w) (dataField w) = w := by
  apply BitVec.eq_of_getLsbD_eq
  intro i hi
  rw [getLsbD_eventWord]
  split
  next h => simp [dataField, h]
  next h1 =>
    split
    next h2 => simp [selField, h2, show 16 + (i - 16) = i by omega]
    next h2 =>
      simp [opField, show i - 16 - 8 < 8 by omega, show 24 + (i - 16 - 8) = i by omega]

@[simp] theorem opField_encode (i : Instr) : opField (encode i) = i.op := opField_eventWord _ _ _

@[simp] theorem selField_encode (i : Instr) : selField (encode i) = i.sel := selField_eventWord _ _ _

@[simp] theorem dataField_encode (i : Instr) : dataField (encode i) = i.data := dataField_eventWord _ _ _

end Sys2Proof
end

