-- ==== Sys2Proof/Laws/State.lean ====
section
/-! SUPPORT. What each named update of the state leaves in each field: one lemma per field per update, true by
unfolding, so that no later proof opens a record update. -/

namespace Sys2Proof.Machine

variable (s : State)

/-! `State.raiseFault`. -/

@[simp] theorem State.raiseFault_st (r : FaultReason) : (s.raiseFault r).st = s.st := rfl
@[simp] theorem State.raiseFault_buf (r : FaultReason) : (s.raiseFault r).buf = s.buf := rfl
@[simp] theorem State.raiseFault_conv (r : FaultReason) : (s.raiseFault r).conv = s.conv := rfl
@[simp] theorem State.raiseFault_cpu (r : FaultReason) : (s.raiseFault r).cpu = s.cpu := rfl
@[simp] theorem State.raiseFault_frame (r : FaultReason) : (s.raiseFault r).frame = s.frame := rfl
@[simp] theorem State.raiseFault_main (r : FaultReason) : (s.raiseFault r).main = s.main := rfl
@[simp] theorem State.raiseFault_rf (r : FaultReason) : (s.raiseFault r).rf = s.rf := rfl
@[simp] theorem State.raiseFault_mem (r : FaultReason) : (s.raiseFault r).mem = s.mem := rfl
@[simp] theorem State.raiseFault_marks (r : FaultReason) : (s.raiseFault r).marks = { s.marks with fault := s.marks.fault.or (some r) } := rfl
@[simp] theorem State.raiseFault_cfg (r : FaultReason) : (s.raiseFault r).cfg = s.cfg := rfl
@[simp] theorem State.raiseFault_sched (r : FaultReason) : (s.raiseFault r).sched = s.sched := rfl
@[simp] theorem State.raiseFault_draws (r : FaultReason) : (s.raiseFault r).draws = s.draws := rfl
@[simp] theorem State.raiseFault_outputs (r : FaultReason) : (s.raiseFault r).outputs = s.outputs := rfl

/-! `State.refuse`. -/

@[simp] theorem State.refuse_st (r : RefusalReason) : (s.refuse r).st = s.st := rfl
@[simp] theorem State.refuse_buf (r : RefusalReason) : (s.refuse r).buf = s.buf := rfl
@[simp] theorem State.refuse_conv (r : RefusalReason) : (s.refuse r).conv = s.conv := rfl
@[simp] theorem State.refuse_cpu (r : RefusalReason) : (s.refuse r).cpu = s.cpu := rfl
@[simp] theorem State.refuse_frame (r : RefusalReason) : (s.refuse r).frame = s.frame := rfl
@[simp] theorem State.refuse_main (r : RefusalReason) : (s.refuse r).main = s.main := rfl
@[simp] theorem State.refuse_rf (r : RefusalReason) : (s.refuse r).rf = s.rf := rfl
@[simp] theorem State.refuse_mem (r : RefusalReason) : (s.refuse r).mem = s.mem := rfl
@[simp] theorem State.refuse_marks (r : RefusalReason) : (s.refuse r).marks = { s.marks with refused := s.marks.refused.or (some r) } := rfl
@[simp] theorem State.refuse_cfg (r : RefusalReason) : (s.refuse r).cfg = s.cfg := rfl
@[simp] theorem State.refuse_sched (r : RefusalReason) : (s.refuse r).sched = s.sched := rfl
@[simp] theorem State.refuse_draws (r : RefusalReason) : (s.refuse r).draws = s.draws := rfl
@[simp] theorem State.refuse_outputs (r : RefusalReason) : (s.refuse r).outputs = s.outputs := rfl

/-! `State.takeInterrupt`. -/

@[simp] theorem State.takeInterrupt_st (c : Cause) (x : Ctx) : (s.takeInterrupt c x).st = s.st := rfl
@[simp] theorem State.takeInterrupt_buf (c : Cause) (x : Ctx) : (s.takeInterrupt c x).buf = s.buf := rfl
@[simp] theorem State.takeInterrupt_conv (c : Cause) (x : Ctx) : (s.takeInterrupt c x).conv = s.conv := rfl
@[simp] theorem State.takeInterrupt_cpu (c : Cause) (x : Ctx) : (s.takeInterrupt c x).cpu = { gie := false, lpm := false, ctx := x } := rfl
@[simp] theorem State.takeInterrupt_frame (c : Cause) (x : Ctx) : (s.takeInterrupt c x).frame = some { lpm := s.cpu.lpm, gie := s.cpu.gie, cause := c, served := false } := rfl
@[simp] theorem State.takeInterrupt_main (c : Cause) (x : Ctx) : (s.takeInterrupt c x).main = s.main := rfl
@[simp] theorem State.takeInterrupt_rf (c : Cause) (x : Ctx) : (s.takeInterrupt c x).rf = s.rf := rfl
@[simp] theorem State.takeInterrupt_mem (c : Cause) (x : Ctx) : (s.takeInterrupt c x).mem = s.mem := rfl
@[simp] theorem State.takeInterrupt_marks (c : Cause) (x : Ctx) : (s.takeInterrupt c x).marks = s.marks := rfl
@[simp] theorem State.takeInterrupt_cfg (c : Cause) (x : Ctx) : (s.takeInterrupt c x).cfg = s.cfg := rfl
@[simp] theorem State.takeInterrupt_sched (c : Cause) (x : Ctx) : (s.takeInterrupt c x).sched = s.sched := rfl
@[simp] theorem State.takeInterrupt_draws (c : Cause) (x : Ctx) : (s.takeInterrupt c x).draws = s.draws := rfl
@[simp] theorem State.takeInterrupt_outputs (c : Cause) (x : Ctx) : (s.takeInterrupt c x).outputs = s.outputs := rfl

/-! `State.returnFrom`. -/

@[simp] theorem State.returnFrom_st (f : Saved) : (s.returnFrom f).st = s.st := rfl
@[simp] theorem State.returnFrom_buf (f : Saved) : (s.returnFrom f).buf = s.buf := rfl
@[simp] theorem State.returnFrom_conv (f : Saved) : (s.returnFrom f).conv = s.conv := rfl
@[simp] theorem State.returnFrom_cpu (f : Saved) : (s.returnFrom f).cpu = { gie := f.gie, lpm := f.lpm, ctx := .main } := rfl
@[simp] theorem State.returnFrom_frame (f : Saved) : (s.returnFrom f).frame = none := rfl
@[simp] theorem State.returnFrom_main (f : Saved) : (s.returnFrom f).main = s.main := rfl
@[simp] theorem State.returnFrom_rf (f : Saved) : (s.returnFrom f).rf = s.rf := rfl
@[simp] theorem State.returnFrom_mem (f : Saved) : (s.returnFrom f).mem = s.mem := rfl
@[simp] theorem State.returnFrom_marks (f : Saved) : (s.returnFrom f).marks = s.marks := rfl
@[simp] theorem State.returnFrom_cfg (f : Saved) : (s.returnFrom f).cfg = s.cfg := rfl
@[simp] theorem State.returnFrom_sched (f : Saved) : (s.returnFrom f).sched = s.sched := rfl
@[simp] theorem State.returnFrom_draws (f : Saved) : (s.returnFrom f).draws = s.draws := rfl
@[simp] theorem State.returnFrom_outputs (f : Saved) : (s.returnFrom f).outputs = s.outputs := rfl

/-! `State.markServed`. -/

@[simp] theorem State.markServed_st : (s.markServed).st = s.st := rfl
@[simp] theorem State.markServed_buf : (s.markServed).buf = s.buf := rfl
@[simp] theorem State.markServed_conv : (s.markServed).conv = s.conv := rfl
@[simp] theorem State.markServed_cpu : (s.markServed).cpu = s.cpu := rfl
@[simp] theorem State.markServed_frame : (s.markServed).frame = s.frame.map fun f => { f with served := true } := rfl
@[simp] theorem State.markServed_main : (s.markServed).main = s.main := rfl
@[simp] theorem State.markServed_rf : (s.markServed).rf = s.rf := rfl
@[simp] theorem State.markServed_mem : (s.markServed).mem = s.mem := rfl
@[simp] theorem State.markServed_marks : (s.markServed).marks = s.marks := rfl
@[simp] theorem State.markServed_cfg : (s.markServed).cfg = s.cfg := rfl
@[simp] theorem State.markServed_sched : (s.markServed).sched = s.sched := rfl
@[simp] theorem State.markServed_draws : (s.markServed).draws = s.draws := rfl
@[simp] theorem State.markServed_outputs : (s.markServed).outputs = s.outputs := rfl

/-! `State.signalWake`. -/

@[simp] theorem State.signalWake_st : (s.signalWake).st = s.st := rfl
@[simp] theorem State.signalWake_buf : (s.signalWake).buf = s.buf := rfl
@[simp] theorem State.signalWake_conv : (s.signalWake).conv = s.conv := rfl
@[simp] theorem State.signalWake_cpu : (s.signalWake).cpu = s.cpu := rfl
@[simp] theorem State.signalWake_frame : (s.signalWake).frame = s.frame.map fun f => { f with lpm := false } := rfl
@[simp] theorem State.signalWake_main : (s.signalWake).main = s.main := rfl
@[simp] theorem State.signalWake_rf : (s.signalWake).rf = s.rf := rfl
@[simp] theorem State.signalWake_mem : (s.signalWake).mem = s.mem := rfl
@[simp] theorem State.signalWake_marks : (s.signalWake).marks = s.marks := rfl
@[simp] theorem State.signalWake_cfg : (s.signalWake).cfg = s.cfg := rfl
@[simp] theorem State.signalWake_sched : (s.signalWake).sched = s.sched := rfl
@[simp] theorem State.signalWake_draws : (s.signalWake).draws = s.draws := rfl
@[simp] theorem State.signalWake_outputs : (s.signalWake).outputs = s.outputs := rfl

/-! `State.startConversion`. -/

@[simp] theorem State.startConversion_st (ch : Channel) : (s.startConversion ch).st = s.st := rfl
@[simp] theorem State.startConversion_buf (ch : Channel) : (s.startConversion ch).buf = s.buf := rfl
@[simp] theorem State.startConversion_cpu (ch : Channel) : (s.startConversion ch).cpu = s.cpu := rfl
@[simp] theorem State.startConversion_frame (ch : Channel) : (s.startConversion ch).frame = s.frame := rfl
@[simp] theorem State.startConversion_main (ch : Channel) : (s.startConversion ch).main = s.main := rfl
@[simp] theorem State.startConversion_rf (ch : Channel) : (s.startConversion ch).rf = s.rf := rfl
@[simp] theorem State.startConversion_mem (ch : Channel) : (s.startConversion ch).mem = s.mem := rfl
@[simp] theorem State.startConversion_marks (ch : Channel) : (s.startConversion ch).marks = s.marks := rfl
@[simp] theorem State.startConversion_cfg (ch : Channel) : (s.startConversion ch).cfg = s.cfg := rfl
@[simp] theorem State.startConversion_sched (ch : Channel) : (s.startConversion ch).sched = s.sched := rfl
@[simp] theorem State.startConversion_draws (ch : Channel) : (s.startConversion ch).draws = s.draws + 1 := rfl
@[simp] theorem State.startConversion_outputs (ch : Channel) : (s.startConversion ch).outputs = s.outputs := rfl

/-! `State.disableConverter`. -/

@[simp] theorem State.disableConverter_st : (s.disableConverter).st = s.st := rfl
@[simp] theorem State.disableConverter_buf : (s.disableConverter).buf = s.buf := rfl
@[simp] theorem State.disableConverter_conv : (s.disableConverter).conv = { s.conv with en := false, sc := false } := rfl
@[simp] theorem State.disableConverter_cpu : (s.disableConverter).cpu = s.cpu := rfl
@[simp] theorem State.disableConverter_frame : (s.disableConverter).frame = s.frame := rfl
@[simp] theorem State.disableConverter_main : (s.disableConverter).main = s.main := rfl
@[simp] theorem State.disableConverter_rf : (s.disableConverter).rf = s.rf := rfl
@[simp] theorem State.disableConverter_mem : (s.disableConverter).mem = s.mem := rfl
@[simp] theorem State.disableConverter_marks : (s.disableConverter).marks = s.marks := rfl
@[simp] theorem State.disableConverter_cfg : (s.disableConverter).cfg = s.cfg := rfl
@[simp] theorem State.disableConverter_sched : (s.disableConverter).sched = s.sched := rfl
@[simp] theorem State.disableConverter_draws : (s.disableConverter).draws = s.draws := rfl
@[simp] theorem State.disableConverter_outputs : (s.disableConverter).outputs = s.outputs := rfl

/-! `State.clearIfg`. -/

@[simp] theorem State.clearIfg_st : (s.clearIfg).st = s.st := rfl
@[simp] theorem State.clearIfg_buf : (s.clearIfg).buf = s.buf := rfl
@[simp] theorem State.clearIfg_conv : (s.clearIfg).conv = { s.conv with ifg := false } := rfl
@[simp] theorem State.clearIfg_cpu : (s.clearIfg).cpu = s.cpu := rfl
@[simp] theorem State.clearIfg_frame : (s.clearIfg).frame = s.frame := rfl
@[simp] theorem State.clearIfg_main : (s.clearIfg).main = s.main := rfl
@[simp] theorem State.clearIfg_rf : (s.clearIfg).rf = s.rf := rfl
@[simp] theorem State.clearIfg_mem : (s.clearIfg).mem = s.mem := rfl
@[simp] theorem State.clearIfg_marks : (s.clearIfg).marks = s.marks := rfl
@[simp] theorem State.clearIfg_cfg : (s.clearIfg).cfg = s.cfg := rfl
@[simp] theorem State.clearIfg_sched : (s.clearIfg).sched = s.sched := rfl
@[simp] theorem State.clearIfg_draws : (s.clearIfg).draws = s.draws := rfl
@[simp] theorem State.clearIfg_outputs : (s.clearIfg).outputs = s.outputs := rfl

/-! `State.clearOverflow`. -/

@[simp] theorem State.clearOverflow_st : (s.clearOverflow).st = s.st := rfl
@[simp] theorem State.clearOverflow_buf : (s.clearOverflow).buf = s.buf := rfl
@[simp] theorem State.clearOverflow_conv : (s.clearOverflow).conv = { s.conv with ovifg := false } := rfl
@[simp] theorem State.clearOverflow_cpu : (s.clearOverflow).cpu = s.cpu := rfl
@[simp] theorem State.clearOverflow_frame : (s.clearOverflow).frame = s.frame := rfl
@[simp] theorem State.clearOverflow_main : (s.clearOverflow).main = s.main := rfl
@[simp] theorem State.clearOverflow_rf : (s.clearOverflow).rf = s.rf := rfl
@[simp] theorem State.clearOverflow_mem : (s.clearOverflow).mem = s.mem := rfl
@[simp] theorem State.clearOverflow_marks : (s.clearOverflow).marks = s.marks := rfl
@[simp] theorem State.clearOverflow_cfg : (s.clearOverflow).cfg = s.cfg := rfl
@[simp] theorem State.clearOverflow_sched : (s.clearOverflow).sched = s.sched := rfl
@[simp] theorem State.clearOverflow_draws : (s.clearOverflow).draws = s.draws := rfl
@[simp] theorem State.clearOverflow_outputs : (s.clearOverflow).outputs = s.outputs := rfl

/-! `State.writeByte`. -/

@[simp] theorem State.writeByte_st (a : Nat) (b : Byte) : (s.writeByte a b).st = s.st := rfl
@[simp] theorem State.writeByte_buf (a : Nat) (b : Byte) : (s.writeByte a b).buf = s.buf := rfl
@[simp] theorem State.writeByte_conv (a : Nat) (b : Byte) : (s.writeByte a b).conv = s.conv := rfl
@[simp] theorem State.writeByte_cpu (a : Nat) (b : Byte) : (s.writeByte a b).cpu = s.cpu := rfl
@[simp] theorem State.writeByte_frame (a : Nat) (b : Byte) : (s.writeByte a b).frame = s.frame := rfl
@[simp] theorem State.writeByte_main (a : Nat) (b : Byte) : (s.writeByte a b).main = s.main := rfl
@[simp] theorem State.writeByte_rf (a : Nat) (b : Byte) : (s.writeByte a b).rf = s.rf := rfl
@[simp] theorem State.writeByte_mem (a : Nat) (b : Byte) : (s.writeByte a b).mem = if imageByte s.cfg a = some b then Memory.drop s.mem a else Memory.put s.mem a b := rfl
@[simp] theorem State.writeByte_marks (a : Nat) (b : Byte) : (s.writeByte a b).marks = s.marks := rfl
@[simp] theorem State.writeByte_cfg (a : Nat) (b : Byte) : (s.writeByte a b).cfg = s.cfg := rfl
@[simp] theorem State.writeByte_sched (a : Nat) (b : Byte) : (s.writeByte a b).sched = s.sched := rfl
@[simp] theorem State.writeByte_draws (a : Nat) (b : Byte) : (s.writeByte a b).draws = s.draws := rfl
@[simp] theorem State.writeByte_outputs (a : Nat) (b : Byte) : (s.writeByte a b).outputs = s.outputs := rfl

/-! `State.writeWord`. -/

@[simp] theorem State.writeWord_st (a : Nat) (v : Word) : (s.writeWord a v).st = s.st := rfl
@[simp] theorem State.writeWord_buf (a : Nat) (v : Word) : (s.writeWord a v).buf = s.buf := rfl
@[simp] theorem State.writeWord_conv (a : Nat) (v : Word) : (s.writeWord a v).conv = s.conv := rfl
@[simp] theorem State.writeWord_cpu (a : Nat) (v : Word) : (s.writeWord a v).cpu = s.cpu := rfl
@[simp] theorem State.writeWord_frame (a : Nat) (v : Word) : (s.writeWord a v).frame = s.frame := rfl
@[simp] theorem State.writeWord_main (a : Nat) (v : Word) : (s.writeWord a v).main = s.main := rfl
@[simp] theorem State.writeWord_rf (a : Nat) (v : Word) : (s.writeWord a v).rf = s.rf := rfl
@[simp] theorem State.writeWord_marks (a : Nat) (v : Word) : (s.writeWord a v).marks = s.marks := rfl
@[simp] theorem State.writeWord_cfg (a : Nat) (v : Word) : (s.writeWord a v).cfg = s.cfg := rfl
@[simp] theorem State.writeWord_sched (a : Nat) (v : Word) : (s.writeWord a v).sched = s.sched := rfl
@[simp] theorem State.writeWord_draws (a : Nat) (v : Word) : (s.writeWord a v).draws = s.draws := rfl
@[simp] theorem State.writeWord_outputs (a : Nat) (v : Word) : (s.writeWord a v).outputs = s.outputs := rfl

/-! `State.placeWord`. -/

@[simp] theorem State.placeWord_st (w : EventWord) : (s.placeWord w).st = s.st := rfl
@[simp] theorem State.placeWord_buf (w : EventWord) : (s.placeWord w).buf = s.buf := rfl
@[simp] theorem State.placeWord_conv (w : EventWord) : (s.placeWord w).conv = s.conv := rfl
@[simp] theorem State.placeWord_cpu (w : EventWord) : (s.placeWord w).cpu = s.cpu := rfl
@[simp] theorem State.placeWord_frame (w : EventWord) : (s.placeWord w).frame = s.frame := rfl
@[simp] theorem State.placeWord_main (w : EventWord) : (s.placeWord w).main = s.main := rfl
@[simp] theorem State.placeWord_rf (w : EventWord) : (s.placeWord w).rf = s.rf := rfl
@[simp] theorem State.placeWord_mem (w : EventWord) : (s.placeWord w).mem = s.mem := rfl
@[simp] theorem State.placeWord_marks (w : EventWord) : (s.placeWord w).marks = s.marks := rfl
@[simp] theorem State.placeWord_cfg (w : EventWord) : (s.placeWord w).cfg = s.cfg := rfl
@[simp] theorem State.placeWord_sched (w : EventWord) : (s.placeWord w).sched = w :: s.sched := rfl
@[simp] theorem State.placeWord_draws (w : EventWord) : (s.placeWord w).draws = s.draws := rfl
@[simp] theorem State.placeWord_outputs (w : EventWord) : (s.placeWord w).outputs = s.outputs := rfl

/-! The converter after `State.startConversion`, field by field. -/

@[simp] theorem State.startConversion_en (ch : Channel) : (s.startConversion ch).conv.en = true := rfl
@[simp] theorem State.startConversion_sc (ch : Channel) : (s.startConversion ch).conv.sc = true := rfl
@[simp] theorem State.startConversion_ch (ch : Channel) : (s.startConversion ch).conv.ch = ch := rfl
@[simp] theorem State.startConversion_gain (ch : Channel) : (s.startConversion ch).conv.gain = s.cfg.cfgGain := rfl
@[simp] theorem State.startConversion_fdly (ch : Channel) : (s.startConversion ch).conv.fdly = s.cfg.cfgFdly := rfl
@[simp] theorem State.startConversion_clk (ch : Channel) : (s.startConversion ch).conv.clk = s.cfg.cfgClk := rfl
@[simp] theorem State.startConversion_bias (ch : Channel) : (s.startConversion ch).conv.bias = true := rfl
@[simp] theorem State.startConversion_ie (ch : Channel) : (s.startConversion ch).conv.ie = true := rfl
@[simp] theorem State.startConversion_ovie (ch : Channel) : (s.startConversion ch).conv.ovie = true := rfl
@[simp] theorem State.startConversion_ifg (ch : Channel) : (s.startConversion ch).conv.ifg = (s.conv.ifg && !s.clearsFlags) := rfl
@[simp] theorem State.startConversion_ovifg (ch : Channel) : (s.startConversion ch).conv.ovifg = (s.conv.ovifg && !s.clearsFlags) := rfl
@[simp] theorem State.startConversion_result (ch : Channel) : (s.startConversion ch).conv.result = s.conv.result := rfl

/-! `State.atReset`: every component's reset value (70_reset_and_hazards R240). -/

@[simp] theorem State.atReset_st (c : Config) (n : Nat) : (State.atReset c n).st = .idle := rfl
@[simp] theorem State.atReset_buf (c : Config) (n : Nat) : (State.atReset c n).buf = ⟨none, none⟩ := rfl
@[simp] theorem State.atReset_cpu (c : Config) (n : Nat) : (State.atReset c n).cpu = ⟨false, false, .main⟩ := rfl
@[simp] theorem State.atReset_frame (c : Config) (n : Nat) : (State.atReset c n).frame = none := rfl
@[simp] theorem State.atReset_main (c : Config) (n : Nat) : (State.atReset c n).main = ⟨.none, false⟩ := rfl
@[simp] theorem State.atReset_rf (c : Config) (n : Nat) : (State.atReset c n).rf = ⟨none, .idle⟩ := rfl
@[simp] theorem State.atReset_mem (c : Config) (n : Nat) : (State.atReset c n).mem = [] := rfl
@[simp] theorem State.atReset_marks (c : Config) (n : Nat) : (State.atReset c n).marks = ⟨none, none⟩ := rfl
@[simp] theorem State.atReset_cfg (c : Config) (n : Nat) : (State.atReset c n).cfg = c := rfl
@[simp] theorem State.atReset_sched (c : Config) (n : Nat) : (State.atReset c n).sched = [] := rfl
@[simp] theorem State.atReset_draws (c : Config) (n : Nat) : (State.atReset c n).draws = n + 1 := rfl
@[simp] theorem State.atReset_outputs (c : Config) (n : Nat) : (State.atReset c n).outputs = [] := rfl

end Sys2Proof.Machine
end

