-- ==== Sys2Proof/Laws/Memory.lean ====
section
/-! SUPPORT. Data memory: a read after a write, and that every memory operation keeps the canonical form (20_memory). -/

namespace Sys2Proof.Machine

/-! The list of bytes written. -/

theorem Memory.get_put_same (m : Memory) (a : Nat) (b : Byte) : Memory.get (Memory.put m a b) a = some b := by
  induction m with
  | nil => simp [Memory.put, Memory.get]
  | cons x rest ih =>
    obtain ⟨k, v⟩ := x
    simp only [Memory.put]
    split
    · simp [Memory.get]
    · split
      · simp [Memory.get]
      · simp [Memory.get, show k ≠ a by omega, ih]

theorem Memory.get_put_other (m : Memory) {a a' : Nat} (b : Byte) (h : a' ≠ a) :
    Memory.get (Memory.put m a b) a' = Memory.get m a' := by
  induction m with
  | nil => simp [Memory.put, Memory.get, h.symm]
  | cons x rest ih =>
    obtain ⟨k, v⟩ := x
    simp only [Memory.put]
    split
    · simp [Memory.get, h.symm]
    · split
      · next _ hk => subst hk; simp [Memory.get, h.symm]
      · simp [Memory.get, ih]

theorem Memory.get_drop_other (m : Memory) {a a' : Nat} (h : a' ≠ a) :
    Memory.get (Memory.drop m a) a' = Memory.get m a' := by
  induction m with
  | nil => rfl
  | cons x rest ih =>
    obtain ⟨k, v⟩ := x
    simp only [Memory.drop]
    split
    · next hk => subst hk; simp [Memory.get, h.symm]
    · simp [Memory.get, ih]

theorem Memory.get_below {lo : Nat} {m : Memory} (h : Memory.risesFrom lo m = true) {a : Nat} (ha : a < lo) :
    Memory.get m a = none := by
  induction m generalizing lo with
  | nil => rfl
  | cons x rest ih =>
    obtain ⟨k, v⟩ := x
    simp only [Memory.risesFrom, Bool.and_eq_true, decide_eq_true_eq] at h
    simp [Memory.get, show k ≠ a by omega, ih h.2 (by omega)]

theorem Memory.get_drop_same {lo : Nat} {m : Memory} (h : Memory.risesFrom lo m = true) (a : Nat) :
    Memory.get (Memory.drop m a) a = none := by
  induction m generalizing lo with
  | nil => rfl
  | cons x rest ih =>
    obtain ⟨k, v⟩ := x
    simp only [Memory.risesFrom, Bool.and_eq_true, decide_eq_true_eq] at h
    simp only [Memory.drop]
    split
    · next hk => subst hk; exact Memory.get_below h.2 (by omega)
    · next hk => simp [Memory.get, hk, ih h.2]

theorem Memory.risesFrom_mono {lo lo' : Nat} (hl : lo' ≤ lo) {m : Memory} (h : Memory.risesFrom lo m = true) :
    Memory.risesFrom lo' m = true := by
  cases m with
  | nil => rfl
  | cons x rest =>
    obtain ⟨k, v⟩ := x
    simp only [Memory.risesFrom, Bool.and_eq_true, decide_eq_true_eq] at h ⊢
    exact ⟨by omega, h.2⟩

theorem Memory.risesFrom_put {lo : Nat} {m : Memory} (h : Memory.risesFrom lo m = true) {a : Nat} (ha : lo ≤ a)
    (b : Byte) : Memory.risesFrom lo (Memory.put m a b) = true := by
  induction m generalizing lo with
  | nil => simp [Memory.put, Memory.risesFrom, ha]
  | cons x rest ih =>
    obtain ⟨k, v⟩ := x
    simp only [Memory.risesFrom, Bool.and_eq_true, decide_eq_true_eq] at h
    simp only [Memory.put]
    split
    · next hk => simp [Memory.risesFrom, ha, h.2]; omega
    · split
      · next hk => subst hk; simp [Memory.risesFrom, ha, h.2]
      · simp [Memory.risesFrom, h.1, ih h.2 (show k + 1 ≤ a by omega)]

theorem Memory.risesFrom_drop {lo : Nat} {m : Memory} (h : Memory.risesFrom lo m = true) (a : Nat) :
    Memory.risesFrom lo (Memory.drop m a) = true := by
  induction m generalizing lo with
  | nil => rfl
  | cons x rest ih =>
    obtain ⟨k, v⟩ := x
    simp only [Memory.risesFrom, Bool.and_eq_true, decide_eq_true_eq] at h
    simp only [Memory.drop]
    split
    · exact Memory.risesFrom_mono (by omega) h.2
    · simp [Memory.risesFrom, h.1, ih h.2]

theorem Memory.mem_put {m : Memory} {a : Nat} {b : Byte} {x : Host.Cell} (h : x ∈ Memory.put m a b) :
    x = (a, b) ∨ x ∈ m := by
  induction m with
  | nil => simpa [Memory.put] using h
  | cons y rest ih =>
    obtain ⟨k, v⟩ := y
    simp only [Memory.put] at h
    split at h
    · simpa using h
    · split at h
      · exact (List.mem_cons.mp h).imp id (List.mem_cons_of_mem _)
      · simp only [List.mem_cons] at h ⊢
        rcases h with h | h
        · exact .inr (.inl h)
        · rcases ih h with h | h
          · exact .inl h
          · exact .inr (.inr h)

theorem Memory.mem_drop {m : Memory} {a : Nat} {x : Host.Cell} (h : x ∈ Memory.drop m a) : x ∈ m := by
  induction m with
  | nil => exact h
  | cons y rest ih =>
    obtain ⟨k, v⟩ := y
    simp only [Memory.drop] at h
    split at h
    · exact List.mem_cons_of_mem _ h
    · simp only [List.mem_cons] at h ⊢
      exact h.imp id ih

/-! The canonical form. -/

theorem Memory.wf_iff {c : Config} {m : Memory} :
    Memory.wf c m = true ↔
      Memory.risesFrom 0 m = true ∧ ∀ x ∈ m, x.1 < 65536 ∧ imageByte c x.1 ≠ some x.2 := by
  simp [Memory.wf, List.all_eq_true]

theorem Memory.wf_nil (c : Config) : Memory.wf c [] = true := rfl

theorem Memory.wf_put {c : Config} {m : Memory} (h : Memory.wf c m = true) {a : Nat} {b : Byte} (ha : a < 65536)
    (hb : imageByte c a ≠ some b) : Memory.wf c (Memory.put m a b) = true := by
  rw [Memory.wf_iff] at h ⊢
  refine ⟨Memory.risesFrom_put h.1 (Nat.zero_le a) b, fun x hx => ?_⟩
  rcases Memory.mem_put hx with rfl | hx
  · exact ⟨ha, hb⟩
  · exact h.2 x hx

theorem Memory.wf_drop {c : Config} {m : Memory} (h : Memory.wf c m = true) (a : Nat) :
    Memory.wf c (Memory.drop m a) = true := by
  rw [Memory.wf_iff] at h ⊢
  exact ⟨Memory.risesFrom_drop h.1 a, fun x hx => h.2 x (Memory.mem_drop hx)⟩

/-- Writing a byte keeps the canonical form. -/
theorem State.writeByte_wf {s : State} (h : Memory.wf s.cfg s.mem = true) {a : Nat} (ha : a < 65536) (b : Byte) :
    Memory.wf s.cfg (s.writeByte a b).mem = true := by
  rw [State.writeByte_mem]
  split
  · exact Memory.wf_drop h a
  · next hb => exact Memory.wf_put h ha hb

/-- State.reset's memory is canonical. -/
theorem State.reset_wf : Memory.wf State.reset.cfg State.reset.mem = true := rfl

/-! Reading after writing one byte. -/

theorem State.readByte_writeByte_same {s : State} (h : Memory.wf s.cfg s.mem = true) (a : Nat) (b : Byte) :
    (s.writeByte a b).readByte a = some b := by
  by_cases hb : imageByte s.cfg a = some b
  · simp [State.readByte, hb, Memory.get_drop_same (Memory.wf_iff.mp h).1]
  · simp [State.readByte, hb, Memory.get_put_same]

/-- As `readByte_writeByte_same`, at an address the image does not cover; the memory may be any list. -/
theorem State.readByte_writeByte_plain {s : State} {a : Nat} (h : imageByte s.cfg a = none) (b : Byte) :
    (s.writeByte a b).readByte a = some b := by
  simp [State.readByte, h, Memory.get_put_same]

theorem State.readByte_writeByte_other (s : State) {a a' : Nat} (b : Byte) (h : a' ≠ a) :
    (s.writeByte a b).readByte a' = s.readByte a' := by
  by_cases hb : imageByte s.cfg a = some b
  · simp [State.readByte, hb, Memory.get_drop_other _ h]
  · simp [State.readByte, hb, Memory.get_put_other _ _ h]

/-- An address outside the table region has no image byte (20_memory R56). -/
theorem imageByte_outside {c : Config} {a : Nat} (h : c.inTable a = false) : imageByte c a = none := by
  simp [imageByte, h]

/-! Words. -/

theorem ByteOrder.join_bytes (o : ByteOrder) (w : Word) :
    ByteOrder.join o (ByteOrder.first o w) (ByteOrder.second o w) = w := by
  cases o <;>
    · apply BitVec.eq_of_getLsbD_eq
      intro i hi
      simp only [ByteOrder.join, ByteOrder.first, ByteOrder.second, BitVec.getLsbD_append, BitVec.getLsbD_extractLsb']
      by_cases h : i < 8
      · simp [h]
      · simp [h, show i - 8 < 8 by omega, show 8 + (i - 8) = i by omega]

/-- What State.memWrite can answer (20_memory R51, R53, R54, R56). -/
theorem State.memWrite_ok {s t : State} {a n : Nat} {v : Word} (h : s.memWrite a n v = .ok t) :
    t = s.writeWord a v ∧ n = 2 ∧ a + 2 ≤ 65536 ∧ a % 2 = 0 ∧ s.cfg.inTable a = false ∧ s.cfg.inTable (a + 1) = false := by
  unfold State.memWrite at h
  split at h
  · simp at h
  · next hr =>
    split at h
    · simp at h
    · next ht =>
      simp only [accessRefusal] at hr
      split at hr
      · simp at hr
      · split at hr
        · simp at hr
        · split at hr
          · simp at hr
          · simp only [Bool.or_eq_true, not_or, Bool.not_eq_true] at ht
            refine ⟨(Except.ok.inj h).symm, ?_, ?_, ?_, ht.1, ht.2⟩ <;> omega

/-- A word access at an even address within 16 bits, outside the table region, is made. -/
theorem State.memWrite_of {s : State} {a : Nat} (v : Word) (hw : a + 2 ≤ 65536) (he : a % 2 = 0)
    (h0 : s.cfg.inTable a = false) (h1 : s.cfg.inTable (a + 1) = false) : s.memWrite a 2 v = .ok (s.writeWord a v) := by
  have : accessRefusal a 2 = none := by simp [accessRefusal, he]; omega
  simp [State.memWrite, this, h0, h1]

theorem State.writeWord_wf {s : State} (h : Memory.wf s.cfg s.mem = true) {a : Nat} (ha : a + 2 ≤ 65536) (v : Word) :
    Memory.wf s.cfg (s.writeWord a v).mem = true :=
  State.writeByte_wf (s := s.writeByte a _) (State.writeByte_wf h (by omega) _) (by omega) _

/-- MemWrite keeps the canonical form. -/
theorem State.memWrite_wf {s t : State} {a n : Nat} {v : Word} (hs : Memory.wf s.cfg s.mem = true)
    (h : s.memWrite a n v = .ok t) : Memory.wf t.cfg t.mem = true := by
  obtain ⟨rfl, _, hw, _⟩ := State.memWrite_ok h
  exact State.writeWord_wf hs hw v

theorem State.readByte_writeWord_other (s : State) {a a' : Nat} (v : Word) (h0 : a' ≠ a) (h1 : a' ≠ a + 1) :
    (s.writeWord a v).readByte a' = s.readByte a' := by
  rw [State.writeWord, State.readByte_writeByte_other _ _ h1, State.readByte_writeByte_other _ _ h0]

/-- A word written outside the table region reads back as its two bytes. -/
theorem State.readByte_writeWord (s : State) {a : Nat} (v : Word) (h0 : s.cfg.inTable a = false)
    (h1 : s.cfg.inTable (a + 1) = false) :
    (s.writeWord a v).readByte a = some (ByteOrder.first s.cfg.byteOrder v) ∧
      (s.writeWord a v).readByte (a + 1) = some (ByteOrder.second s.cfg.byteOrder v) := by
  constructor
  · rw [State.writeWord, State.readByte_writeByte_other _ _ (by omega)]
    exact State.readByte_writeByte_plain (imageByte_outside h0) _
  · exact State.readByte_writeByte_plain (s := s.writeByte a _) (imageByte_outside h1) _

/-- What State.memRead answers where both bytes hold something (20_memory R52). -/
theorem State.memRead_of {s : State} {a : Nat} {b0 b1 : Byte} (hw : a + 2 ≤ 65536) (he : a % 2 = 0)
    (h0 : s.readByte a = some b0) (h1 : s.readByte (a + 1) = some b1) :
    s.memRead a 2 = .ok (ByteOrder.join s.cfg.byteOrder b0 b1) := by
  have : accessRefusal a 2 = none := by simp [accessRefusal, he]; omega
  simp [State.memRead, this, h0, h1]

/-- A word written is the word read back. -/
theorem State.memRead_writeWord (s : State) {a : Nat} (v : Word) (hw : a + 2 ≤ 65536) (he : a % 2 = 0)
    (h0 : s.cfg.inTable a = false) (h1 : s.cfg.inTable (a + 1) = false) : (s.writeWord a v).memRead a 2 = .ok v := by
  obtain ⟨g0, g1⟩ := s.readByte_writeWord v h0 h1
  rw [State.memRead_of hw he g0 g1]
  exact congrArg Except.ok (ByteOrder.join_bytes s.cfg.byteOrder v)

end Sys2Proof.Machine
end

