-- ==== Sys2Proof/Laws/Exec.lean ====
section
/-! SUPPORT. What one operation can do: `exec` is the commit of a body, and what each body answers when it completes. A
proof about `exec` cites these lemmas and opens no meaning again. -/

namespace Sys2Proof.Machine

/-- A body behind its enabling condition. -/
def gate (enabled : Bool) (body : Except Stop State) : Except Stop State :=
  if enabled then body else .error (.halt .notEnabled)

/-- A handler's body behind its context and its enabling condition. -/
def handlerGate (s : State) (x : Ctx) (enabled : Bool) (body : Except Stop State) : Except Stop State :=
  if s.cpu.ctx ≠ x then .error (.refuse .wrongContext) else gate enabled body

/-- The body of each operation, with its gates. -/
def opBody (i : Instr) (s : State) : Except Stop State :=
  match i with
  | .reqCycle => gate s.mainSteps s.request
  | .sleep => gate s.mainSteps (.ok { s with cpu := { s.cpu with gie := true, lpm := true } })
  | .enableInt => gate s.mainSteps (.ok { s with cpu := { s.cpu with gie := true } })
  | .calibrate => gate s.mainSteps (.ok s)
  | .readSample k => gate s.mainSteps (s.readSlot k)
  | .reqFinish => gate s.finishSteps s.finishRequest
  | .endMain => gate s.mainSteps (.ok { s with main := { s.main with done := true } })
  | .cfgStart ch => gate s.softwareRuns (s.configureAndStart ch)
  | .convDisable => gate s.softwareRuns (.ok s.disableConverter)
  | .resultRead _ => gate s.softwareRuns (.ok s.clearIfg)
  | .ovClear => gate s.softwareRuns (.ok s.clearOverflow)
  | .convDone v =>
    gate (s.conv.en && s.conv.sc) (.ok { s with conv := { s.conv with result := v, ifg := true, sc := false } })
  | .convOvfEnd => gate (s.conv.en && s.conv.sc) (.ok { s with conv := { s.conv with ovifg := true, sc := false } })
  | .convOvf => gate (s.conv.en && s.cfg.ovfSpurious) (.ok { s with conv := { s.conv with ovifg := true } })
  | .convIrqEntry c => gate (s.entryOpen && s.conv.hasCause c) (.ok (s.takeInterrupt c .convISR))
  | .isrComplete d => handlerGate s .convISR true (s.serveComplete d)
  | .isrOverflow => handlerGate s .convISR true s.serveOverflow
  | .reti => handlerGate s .convISR true s.returnServed
  | .wake => handlerGate s .convISR s.frame.isSome (.ok s.signalWake)
  | .rfFrame id =>
    gate (s.rf.pending.isNone && decide (s.rf.phase = .idle)) (.ok { s with rf := { s.rf with pending := some id } })
  | .rfIrqEntry =>
    gate (s.entryOpen && s.rfPending) (.ok { s.takeInterrupt .rf .rfISR with rf := { s.rf with phase := .lookup } })
  | .dtLookup => handlerGate s .rfISR (decide (s.rf.phase = .lookup)) s.lookupPending
  | .dtInvoke => handlerGate s .rfISR (invoking s.rf.phase) s.invokeHandler
  | .customStart => handlerGate s .rfISR (decide (s.rf.phase = .start)) s.customBegin
  | .customFinish d =>
    handlerGate s .rfISR (decide (s.rf.phase = .wait) && (!s.cfg.delaySufficient || !s.conv.sc)) (s.customEnd d)
  | .replyWrite v => handlerGate s .rfISR true (s.writeReply v)
  | .rfReturn w => handlerGate s .rfISR (decide (s.rf.phase = .done) && (!w || s.cfg.rfIsrMayWake)) (s.rfReturnBody w)
  | .reset => .ok s.afterReset

theorem State.whenEnabled_eq (s : State) (e : Bool) (b : Except Stop State) :
    s.whenEnabled e b = if s.marked then .fault .marked else s.commit (gate e b) := by
  cases e <;> simp [State.whenEnabled, gate, State.commit]

theorem State.inHandler_eq (s : State) (x : Ctx) (e : Bool) (b : Except Stop State) :
    s.inHandler x e b = if s.marked then .fault .marked else s.commit (handlerGate s x e b) := by
  cases e <;> by_cases h : s.cpu.ctx = x <;> simp [State.inHandler, handlerGate, gate, State.commit, h]

/-- Every operation but RESET commits its body, unless a mark is set. -/
theorem exec_eq {i : Instr} (h : i ≠ .reset) (s : State) :
    exec i s = if s.marked then .fault .marked else s.commit (opBody i s) := by
  cases i <;>
    first
    | exact s.whenEnabled_eq _ _
    | exact s.inHandler_eq _ _ _
    | exact absurd rfl h

theorem State.commit_next {s t : State} {b : Except Stop State} :
    s.commit b = .next t ↔
      b = .ok t ∨ (∃ r, b = .error (.fault r) ∧ t = s.raiseFault r) ∨ ∃ r, b = .error (.refuse r) ∧ t = s.refuse r := by
  rcases b with (r | r | f) | u <;> simp [State.commit, eq_comm]

/-- What an operation can do: its body completes, or it sets one mark and writes nothing else (60_exceptions R214). -/
theorem exec_next {i : Instr} (h : i ≠ .reset) {s t : State} (hx : exec i s = .next t) :
    s.marked = false ∧
      (opBody i s = .ok t ∨ (∃ r, opBody i s = .error (.fault r) ∧ t = s.raiseFault r) ∨
        ∃ r, opBody i s = .error (.refuse r) ∧ t = s.refuse r) := by
  rw [exec_eq h] at hx
  split at hx
  · simp at hx
  · next hm => exact ⟨by simpa using hm, State.commit_next.mp hx⟩

theorem exec_of_ok {i : Instr} (h : i ≠ .reset) {s t : State} (hm : s.marked = false) (hb : opBody i s = .ok t) :
    exec i s = .next t := by
  rw [exec_eq h, hm, hb]; rfl

theorem exec_of_fault {i : Instr} (h : i ≠ .reset) {s : State} {r : FaultReason} (hm : s.marked = false)
    (hb : opBody i s = .error (.fault r)) : exec i s = .next (s.raiseFault r) := by
  rw [exec_eq h, hm, hb]; rfl

theorem exec_of_refuse {i : Instr} (h : i ≠ .reset) {s : State} {r : RefusalReason} (hm : s.marked = false)
    (hb : opBody i s = .error (.refuse r)) : exec i s = .next (s.refuse r) := by
  rw [exec_eq h, hm, hb]; rfl

theorem exec_of_halt {i : Instr} (h : i ≠ .reset) {s : State} {f : Fault} (hm : s.marked = false)
    (hb : opBody i s = .error (.halt f)) : exec i s = .fault f := by
  rw [exec_eq h, hm, hb]; rfl

@[simp] theorem gate_true (b : Except Stop State) : gate true b = b := rfl

@[simp] theorem gate_false (b : Except Stop State) : gate false b = .error (.halt .notEnabled) := rfl

theorem gate_ok {e : Bool} {b : Except Stop State} {t : State} : gate e b = .ok t ↔ e = true ∧ b = .ok t := by
  cases e <;> simp

theorem handlerGate_ok {s : State} {x : Ctx} {e : Bool} {b : Except Stop State} {t : State} :
    handlerGate s x e b = .ok t ↔ s.cpu.ctx = x ∧ e = true ∧ b = .ok t := by
  by_cases h : s.cpu.ctx = x <;> simp [handlerGate, h, gate_ok]

/-! What each body answers when it completes. -/

theorem State.configureAndStart_ok {s t : State} {ch : Channel} :
    s.configureAndStart ch = .ok t ↔ s.conv.sc = false ∧ t = s.startConversion ch := by
  cases h : s.conv.sc <;> simp [State.configureAndStart, h, eq_comm]

theorem State.request_ok {s t : State} :
    s.request = .ok t ↔
      s.st = .idle ∧ (s.conv.sc && startsAtOnce s.requestOrder) = false ∧ t = s.requestBy s.requestOrder := by
  by_cases h : s.st = .idle <;> cases h' : (s.conv.sc && startsAtOnce s.requestOrder) <;>
    simp [State.request, h, h', eq_comm]

theorem State.finishRequest_ok {s t : State} :
    s.finishRequest = .ok t ↔
      (s.main.half = .startPending ∧ s.conv.sc = false ∧
          t = { s.startConversion .referenceAdc1 with main := { s.main with half := .none } }) ∨
        (s.main.half = .statePending ∧
          t = { s with st := .awaitingReference, main := { s.main with half := .none } }) := by
  cases h : s.main.half <;> cases h' : s.conv.sc <;>
    simp [State.finishRequest, State.configureAndStart, h, h', eq_comm]

theorem State.readSlot_ok {s t : State} {i : Slot} :
    s.readSlot i = .ok t ↔ ∃ v, s.slot i = some v ∧ t = { s with outputs := s.outputs ++ [(i, v)] } := by
  cases h : s.slot i <;> simp [State.readSlot, h, eq_comm]

theorem State.completeReference_ok {s t : State} {d : Word} :
    s.completeReference d = .ok t ↔
      s.conv.sc = false ∧
        t =
          { ({ s.clearIfg with buf := { s.buf with slot0 := some (s.resultValue d) } } : State).startConversion
              .thermistorAdc2 with
            st := .awaitingThermistor } := by
  cases h : s.conv.sc <;> simp [State.completeReference, State.configureAndStart, h, eq_comm]

theorem State.completeIdle_ok {s t : State} :
    s.completeIdle = .ok t ↔ s.cfg.idleCompletion = .discard ∧ t = s.clearIfg := by
  cases h : s.cfg.idleCompletion <;> simp [State.completeIdle, h, eq_comm]

/-- The completion arms that complete (41_sampling_sequencer R134 to R136). -/
theorem State.completeArm_ok {s t : State} {d : Word} :
    s.completeArm d = .ok t ↔
      (s.st = .idle ∧ s.completeIdle = .ok t) ∨ (s.st = .awaitingReference ∧ s.completeReference d = .ok t) ∨
        (s.st = .awaitingThermistor ∧ t = s.completeThermistor d) := by
  cases h : s.st <;> simp [State.completeArm, h, eq_comm]

theorem State.serveComplete_ok {s t : State} {d : Word} :
    s.serveComplete d = .ok t ↔ s.serving .complete = true ∧ ∃ u, s.completeArm d = .ok u ∧ t = u.markServed := by
  cases h : s.serving .complete <;> cases h' : s.completeArm d <;> simp [State.serveComplete, h, h', eq_comm]

theorem State.serveOverflow_ok {s t : State} :
    s.serveOverflow = .ok t ↔ s.serving .overflow = true ∧ t = s.clearOverflow.markServed := by
  cases h : s.serving .overflow <;> simp [State.serveOverflow, h, eq_comm]

theorem State.returnServed_ok {s t : State} :
    s.returnServed = .ok t ↔ ∃ f, s.frame = some f ∧ f.served = true ∧ t = s.returnFrom f := by
  rcases h : s.frame with _ | f
  · simp [State.returnServed, h]
  · cases h' : f.served
    · simp [State.returnServed, h, h']
    · simp only [State.returnServed, h, h', if_true, Except.ok.injEq, Option.some.injEq, exists_eq_left', true_and]
      exact eq_comm

theorem State.lookupPending_ok {s t : State} :
    s.lookupPending = .ok t ↔
      ∃ id r, s.rf.pending = some id ∧ s.lookupId id = .ok r ∧ t = { s with rf := ⟨none, phaseOf r⟩ } := by
  rcases h : s.rf.pending with _ | id
  · simp [State.lookupPending, h]
  · cases h' : s.lookupId id <;> simp [State.lookupPending, h, h', eq_comm]

theorem State.invokeHandler_ok {s t : State} :
    s.invokeHandler = .ok t ↔
      s.rf.phase = .invoke s.cfg.handlerAddr ∧ t = { s with rf := { s.rf with phase := .start } } := by
  cases h : s.rf.phase with
  | invoke a => by_cases h' : a = s.cfg.handlerAddr <;> simp [State.invokeHandler, h, h', eq_comm]
  | _ => simp [State.invokeHandler, h]

theorem State.customBegin_ok {s t : State} :
    s.customBegin = .ok t ↔
      s.conv.sc = false ∧ t = { s.startConversion s.cfg.customCh with rf := { s.rf with phase := .wait } } := by
  cases h : s.conv.sc <;> simp [State.customBegin, State.configureAndStart, h, eq_comm]

/-- The reply as it is written (42_dispatch R166). -/
def State.replyWritten (s : State) (v : Word) : State :=
  (s.writeWord s.cfg.replyBase.toNat s.cfg.replyLenWord).writeWord (s.cfg.replyBase.toNat + 2) v

theorem State.writeReply_ok {s t : State} {v : Word} (h : s.writeReply v = .ok t) :
    t = s.replyWritten v ∧ s.cfg.replyBase.toNat + 4 ≤ 65536 := by
  unfold State.writeReply at h
  cases h' : s.memWrite s.cfg.replyBase.toNat 2 s.cfg.replyLenWord with
  | error e => simp [h'] at h
  | ok u =>
    simp only [h'] at h
    obtain ⟨rfl, _⟩ := State.memWrite_ok h'
    obtain ⟨rfl, _, hw, _⟩ := State.memWrite_ok h
    exact ⟨rfl, by omega⟩

theorem State.customEnd_ok {s t : State} {d : Word} (h : s.customEnd d = .ok t) :
    t = { s.clearIfg.replyWritten (s.resultValue d) with rf := { s.rf with phase := .done } } ∧
      s.cfg.replyBase.toNat + 4 ≤ 65536 := by
  unfold State.customEnd at h
  cases h' : s.clearIfg.writeReply (s.resultValue d) with
  | error e => simp [h'] at h
  | ok u =>
    simp only [h'] at h
    obtain ⟨rfl, hw⟩ := State.writeReply_ok h'
    exact ⟨(Except.ok.inj h).symm, hw⟩

theorem State.rfReturnBody_ok {s t : State} {w : Bool} :
    s.rfReturnBody w = .ok t ↔
      ∃ f, s.frame = some f ∧
        t = { s.returnFrom { f with lpm := f.lpm && !w } with rf := { s.rf with phase := .idle } } := by
  rcases h : s.frame with _ | f <;> simp [State.rfReturnBody, h, eq_comm]

/-- Writing the reply keeps the canonical form of data memory. -/
theorem State.replyWritten_wf {s : State} (h : Memory.wf s.cfg s.mem = true) (hw : s.cfg.replyBase.toNat + 4 ≤ 65536)
    (v : Word) : Memory.wf s.cfg (s.replyWritten v).mem = true :=
  State.writeWord_wf (s := s.writeWord _ _) (State.writeWord_wf h (by omega) _) (by simpa using hw) v

/-! RESET and the step. -/

theorem exec_reset (s : State) : exec .reset s = .next s.afterReset := rfl

theorem State.afterReset_runs {s : State} (h : s.cfg.refusal = none) :
    s.afterReset = { State.atReset s.cfg s.draws with sched := s.sched, outputs := s.outputs } := by
  simp [State.afterReset, h]

theorem State.afterReset_refused {s : State} {r : RefusalReason} (h : s.cfg.refusal = some r) :
    s.afterReset = s.refuse r := by
  simp [State.afterReset, h]

/-- What one step can do: the head word's operation acts, or the word names none and is refused. -/
theorem step_next {s t : State} (h : step s = .next t) :
    ∃ w rest, s.sched = w :: rest ∧
      ((∃ i, decode w = .ok i ∧ exec i { s with sched := rest } = .next t) ∨
        (∃ e, decode w = .error e) ∧ s.marked = false ∧ t = ({ s with sched := rest } : State).refuse .badOperation) := by
  unfold step State.fetch at h
  cases hs : s.sched with
  | nil => simp [hs] at h
  | cons w rest =>
    refine ⟨w, rest, rfl, ?_⟩
    simp only [hs] at h
    cases hd : decode w with
    | ok i => exact .inl ⟨i, rfl, by simpa [hd] using h⟩
    | error e =>
      refine .inr ⟨⟨e, rfl⟩, ?_⟩
      simp only [hd, State.badWord, State.whenEnabled_eq, gate_true, State.commit] at h
      split at h
      · simp at h
      · next hm => exact ⟨by simpa [State.marked] using hm, by simpa [eq_comm] using h⟩

end Sys2Proof.Machine
end

