-- ==== Sys2Proof/Laws/PerInstr.lean ====
section
/-! SUPPORT. Per-instruction lemmas: family `EncodedFields`, the three fields of each operation's word (30_encoding R71 to
R74). -/

namespace Sys2Proof.Laws

/-- The word of an operation has its `op` code, its `sel` operand and its `data` operand in the fields R71 names. -/
def EncodedFields.Statement (i : Instr) : Prop :=
  opField (encode i) = i.op ∧ selField (encode i) = i.sel ∧ dataField (encode i) = i.data

theorem EncodedFields.all (i : Instr) : EncodedFields.Statement i :=
  ⟨opField_encode i, selField_encode i, dataField_encode i⟩

theorem EncodedFields.reqCycle : EncodedFields.Statement .reqCycle := EncodedFields.all _

theorem EncodedFields.sleep : EncodedFields.Statement .sleep := EncodedFields.all _

theorem EncodedFields.enableInt : EncodedFields.Statement .enableInt := EncodedFields.all _

theorem EncodedFields.calibrate : EncodedFields.Statement .calibrate := EncodedFields.all _

theorem EncodedFields.readSample (i : Slot) : EncodedFields.Statement (.readSample i) := EncodedFields.all _

theorem EncodedFields.reqFinish : EncodedFields.Statement .reqFinish := EncodedFields.all _

theorem EncodedFields.endMain : EncodedFields.Statement .endMain := EncodedFields.all _

theorem EncodedFields.cfgStart (ch : Channel) : EncodedFields.Statement (.cfgStart ch) := EncodedFields.all _

theorem EncodedFields.convDisable : EncodedFields.Statement .convDisable := EncodedFields.all _

theorem EncodedFields.resultRead (d : Word) : EncodedFields.Statement (.resultRead d) := EncodedFields.all _

theorem EncodedFields.ovClear : EncodedFields.Statement .ovClear := EncodedFields.all _

theorem EncodedFields.convDone (v : Word) : EncodedFields.Statement (.convDone v) := EncodedFields.all _

theorem EncodedFields.convOvfEnd : EncodedFields.Statement .convOvfEnd := EncodedFields.all _

theorem EncodedFields.convOvf : EncodedFields.Statement .convOvf := EncodedFields.all _

theorem EncodedFields.convIrqEntry (c : Cause) : EncodedFields.Statement (.convIrqEntry c) := EncodedFields.all _

theorem EncodedFields.isrComplete (d : Word) : EncodedFields.Statement (.isrComplete d) := EncodedFields.all _

theorem EncodedFields.isrOverflow : EncodedFields.Statement .isrOverflow := EncodedFields.all _

theorem EncodedFields.reti : EncodedFields.Statement .reti := EncodedFields.all _

theorem EncodedFields.wake : EncodedFields.Statement .wake := EncodedFields.all _

theorem EncodedFields.rfFrame (id : Word) : EncodedFields.Statement (.rfFrame id) := EncodedFields.all _

theorem EncodedFields.rfIrqEntry : EncodedFields.Statement .rfIrqEntry := EncodedFields.all _

theorem EncodedFields.dtLookup : EncodedFields.Statement .dtLookup := EncodedFields.all _

theorem EncodedFields.dtInvoke : EncodedFields.Statement .dtInvoke := EncodedFields.all _

theorem EncodedFields.customStart : EncodedFields.Statement .customStart := EncodedFields.all _

theorem EncodedFields.customFinish (d : Word) : EncodedFields.Statement (.customFinish d) := EncodedFields.all _

theorem EncodedFields.replyWrite (v : Word) : EncodedFields.Statement (.replyWrite v) := EncodedFields.all _

theorem EncodedFields.rfReturn (w : Bool) : EncodedFields.Statement (.rfReturn w) := EncodedFields.all _

theorem EncodedFields.reset : EncodedFields.Statement .reset := EncodedFields.all _

end Sys2Proof.Laws
end

