-- ==== Sys2Proof/Laws/Ready.lean ====
section
/-! SUPPORT. The readiness conditions claims use are the gates the meanings pass, and what a step that sets a mark or has
no step looks like. -/

namespace Sys2Proof.Machine

theorem unmarked_iff {s : State} : Unmarked s ↔ s.marked = false := by
  cases h : s.marks.fault <;> cases h' : s.marks.refused <;> simp [Unmarked, State.marked, h, h']

theorem mainReady_iff {s : State} : MainReady s ↔ s.marked = false ∧ s.mainSteps = true := by
  rw [← unmarked_iff]
  constructor
  · rintro ⟨h, h1, h2, h3, h4⟩
    exact ⟨h, by simp [State.mainSteps, State.mainAwake, h1, h2, h3, h4]⟩
  · rintro ⟨h, h'⟩
    simp only [State.mainSteps, State.mainAwake, Bool.and_eq_true, decide_eq_true_eq, Bool.not_eq_true'] at h'
    exact ⟨h, h'.1.1.1, h'.1.1.2, h'.1.2, h'.2⟩

theorem finishReady_iff {s : State} :
    FinishReady s ∧ s.main.half ≠ .none ↔ s.marked = false ∧ s.finishSteps = true := by
  rw [← unmarked_iff]
  constructor
  · rintro ⟨⟨h, h1, h2⟩, h3⟩
    exact ⟨h, by simp [State.finishSteps, State.mainAwake, h1, h2, h3]⟩
  · rintro ⟨h, h'⟩
    simp only [State.finishSteps, State.mainAwake, Bool.and_eq_true, decide_eq_true_eq, Bool.not_eq_true'] at h'
    exact ⟨⟨h, h'.1.1, h'.1.2⟩, h'.2⟩

theorem softwareReady_iff {s : State} : SoftwareReady s ↔ s.marked = false ∧ s.softwareRuns = true := by
  rw [SoftwareReady, mainReady_iff, unmarked_iff]
  by_cases h : s.cpu.ctx = .main <;> simp [State.softwareRuns, h]
  exact fun h _ => h

theorem entryReady_iff {s : State} : EntryReady s ↔ s.marked = false ∧ s.entryOpen = true := by
  rw [← unmarked_iff]
  constructor
  · rintro ⟨h, h1, h2, h3⟩
    exact ⟨h, by simp [State.entryOpen, h1, h2, h3]⟩
  · rintro ⟨h, h'⟩
    simp only [State.entryOpen, Bool.and_eq_true, decide_eq_true_eq, Option.isNone_iff_eq_none] at h'
    exact ⟨h, h'.1.1, h'.1.2, h'.2⟩

theorem inCauses_iff {c : Converter} {k : Cause} : InCauses c k ↔ c.hasCause k = true := by
  cases k <;> simp [InCauses, Converter.hasCause]

theorem State.startConversion_started (s : State) (ch : Channel) :
    Started s.cfg ch s.conv (s.startConversion ch).conv := by
  refine ⟨rfl, rfl, rfl, rfl, rfl, rfl, rfl, rfl, rfl, rfl, fun h => ?_, fun h => ?_, ?_⟩
  · simp [State.clearsFlags, h]
  · simp [State.clearsFlags, h]
  · cases h : s.clearsFlags <;> simp [h]

/-- A body behind a gate that is shut has no step. -/
theorem noStep_of_halt {i : Instr} (h : i ≠ .reset) {s : State} {f : Fault} (hb : opBody i s = .error (.halt f)) :
    NoStep (exec i s) := by
  intro t hx
  rw [exec_eq h, hb] at hx
  split at hx <;> simp [State.commit] at hx

/-- An operation that waits for a condition has no step in a marked state, nor where the condition fails. -/
theorem noStep_of_gate {i : Instr} (h : i ≠ .reset) {s : State} {e : Bool} {b : Except Stop State}
    (hb : opBody i s = gate e b) (he : ¬ (s.marked = false ∧ e = true)) : NoStep (exec i s) := by
  intro t hx
  obtain ⟨hm, hx⟩ := exec_next h hx
  have : e = false := by simpa [hm] using he
  simp [hb, this] at hx

/-- A marked state has no step but RESET (60_exceptions R205). -/
theorem noStep_of_marked {i : Instr} (h : i ≠ .reset) {s : State} (hm : s.marked = true) : NoStep (exec i s) := by
  intro t hx
  simp [exec_eq h, hm] at hx

theorem State.raiseFault_eq {s : State} (h : s.marked = false) (r : FaultReason) :
    s.raiseFault r = { s with marks := ⟨some r, s.marks.refused⟩ } := by
  have := (unmarked_iff.mpr h).1
  simp [State.raiseFault, this]

theorem State.refuse_eq {s : State} (h : s.marked = false) (r : RefusalReason) :
    s.refuse r = { s with marks := ⟨s.marks.fault, some r⟩ } := by
  have := (unmarked_iff.mpr h).2
  simp [State.refuse, this]

end Sys2Proof.Machine
end

