-- ==== Sys2Proof/Laws/Regions.lean ====
section
/-! SUPPORT. What a configuration that passes RESET's checks says, and the two memory operations under it: reading a word
of the dispatch table and writing the reply (20_memory R51 to R60). -/

namespace Sys2Proof

theorem Config.inTable_iff {c : Config} {a : Nat} :
    c.inTable a = true ↔ c.dtBase.toNat ≤ a ∧ a < c.dtBase.toNat + 8 := by
  rw [Config.inTable, Bool.and_eq_true]
  exact and_congr (decide_eq_true_iff) (decide_eq_true_iff)

theorem Config.inReply_iff {c : Config} {a : Nat} :
    c.inReply a = true ↔ c.replyBase.toNat ≤ a ∧ a < c.replyBase.toNat + 4 := by
  rw [Config.inReply, Bool.and_eq_true]
  exact and_congr (decide_eq_true_iff) (decide_eq_true_iff)

/-- The four checks of RESET (70_reset_and_hazards R240), where none refuses. -/
theorem Config.refusal_none {c : Config} (h : c.refusal = none) :
    c.imageWellFormed = true ∧ c.aligned = true ∧ c.inRange = true ∧ c.disjoint = true := by
  unfold Config.refusal at h
  repeat' split at h
  all_goals simp_all

/-- The two regions in numbers: even, within 16 bits, apart. -/
theorem Config.regions {c : Config} (h : c.refusal = none) :
    (c.dtBase.toNat % 2 = 0 ∧ c.replyBase.toNat % 2 = 0) ∧
      (c.dtBase.toNat + 8 ≤ 65536 ∧ c.replyBase.toNat + 4 ≤ 65536) ∧
        (c.dtBase.toNat + 8 ≤ c.replyBase.toNat ∨ c.replyBase.toNat + 4 ≤ c.dtBase.toNat) := by
  obtain ⟨-, h2, h3, h4⟩ := Config.refusal_none h
  refine ⟨by simpa [Config.aligned] using h2,
    by simpa [Config.inRange, Config.tableEnd, Config.replyEnd, Config.dtN] using h3, ?_⟩
  simp only [Config.disjoint, Bool.or_eq_true] at h4
  exact h4.imp (fun h => of_decide_eq_true h) (fun h => of_decide_eq_true h)

/-- A byte of the reply region lies outside the table region (20_memory R58). -/
theorem Config.reply_outside_table {c : Config} (h : c.refusal = none) {a : Nat} (h0 : c.replyBase.toNat ≤ a)
    (h1 : a < c.replyBase.toNat + 4) : c.inTable a = false := by
  obtain ⟨-, -, h4⟩ := Config.regions h
  rw [← Bool.not_eq_true, Config.inTable_iff]
  omega

/-- A checked one-entry image: the identifier is not the key, and the scan's bound admits the entry. -/
theorem Config.oneEntry_checked {c : Config} (h : c.refusal = none) (hi : c.dtImage = c.oneEntryImage) :
    c.cmdId ≠ c.dtKey ∧ 1 ≤ c.dtMax := by
  obtain ⟨h1, -⟩ := Config.refusal_none h
  simp [Config.imageWellFormed, Config.commandIds, hi, Config.oneEntryImage, Config.dtN] at h1
  exact ⟨h1.1.1, h1.1.2⟩

/-- The configuration of State.reset passes every check, with every value in its type (log 5). -/
theorem Config.chip_runs : Config.chip.runs = true := by
  have key : ∀ c : Config, c.runs = true →
      ({ c with
          replyLenWord := 0x0000, byteOrder := .little, cfgFlagPolicy := .either, ovfSpurious := true,
          idleCompletion := .discard, reqCycleOrder := .any, rfIsrMayWake := true,
          delaySufficient := false } : Config).runs = true := fun _ h => h
  unfold Config.chip
  apply key
  split
  · assumption
  · decide

namespace Machine

theorem Memory.mem_of_get {m : Memory} {a : Nat} {b : Byte} (h : Memory.get m a = some b) : (a, b) ∈ m := by
  induction m with
  | nil => cases h
  | cons x rest ih =>
    obtain ⟨k, v⟩ := x
    simp only [Memory.get] at h
    split at h
    · next hk => cases h; subst hk; simp
    · exact List.mem_cons_of_mem _ (ih h)

/-- Nothing is written in the table region of a checked configuration (20_memory R56). -/
theorem State.get_table {s : State} (h : s.cfg.refusal = none) (hm : MemoryInv s) {a : Nat}
    (h0 : s.cfg.dtBase.toNat ≤ a) (h1 : a < s.cfg.dtBase.toNat + 8) : Memory.get s.mem a = none := by
  cases hg : Memory.get s.mem a with
  | none => rfl
  | some b =>
    obtain ⟨-, -, h4⟩ := Config.regions h
    have hr := hm.replyOnly _ (Memory.mem_of_get hg)
    have := Config.inReply_iff.mp hr
    omega

/-- The k-th word of the table is the k-th word of the image (20_memory R60). -/
theorem State.tableWord_of {s : State} (h : s.cfg.refusal = none) (hm : MemoryInv s) {k : Nat} (hk : k < 4) {w : Word}
    (hw : s.cfg.dtImage[k]? = some w) : s.tableWord k = .ok w := by
  obtain ⟨h2, h3, -⟩ := Config.regions h
  have inT : ∀ a, s.cfg.dtBase.toNat ≤ a → a < s.cfg.dtBase.toNat + 8 → s.cfg.inTable a = true := fun a h h' =>
    Config.inTable_iff.mpr ⟨h, h'⟩
  have e0 : s.readByte (s.cfg.dtBase.toNat + 2 * k) = some (ByteOrder.first s.cfg.byteOrder w) := by
    rw [State.readByte, State.get_table h hm (by omega) (by omega)]
    simp [imageByte, inT _ (Nat.le_add_right _ _) (show s.cfg.dtBase.toNat + 2 * k < _ by omega), hw]
  have e1 : s.readByte (s.cfg.dtBase.toNat + 2 * k + 1) = some (ByteOrder.second s.cfg.byteOrder w) := by
    rw [State.readByte, State.get_table h hm (by omega) (by omega)]
    have h4 : (s.cfg.dtBase.toNat + 2 * k + 1 - s.cfg.dtBase.toNat) / 2 = k := by omega
    have h5 : (s.cfg.dtBase.toNat + 2 * k + 1 - s.cfg.dtBase.toNat) % 2 = 1 := by omega
    simp [imageByte, inT (s.cfg.dtBase.toNat + 2 * k + 1) (by omega) (by omega), h4, h5, hw]
  rw [State.tableWord, State.memRead_of (by omega) (by omega) e0 e1, ByteOrder.join_bytes]

/-- Under a checked configuration the reply is written, whatever the state (42_dispatch R166). -/
theorem State.writeReply_of {s : State} (h : s.cfg.refusal = none) (v : Word) :
    s.writeReply v = .ok (s.replyWritten v) := by
  obtain ⟨h2, h3, -⟩ := Config.regions h
  have out : ∀ a, s.cfg.replyBase.toNat ≤ a → a < s.cfg.replyBase.toNat + 4 → s.cfg.inTable a = false := fun a =>
    Config.reply_outside_table h
  rw [State.writeReply, State.memWrite_of _ (by omega) (by omega) (out _ (by omega) (by omega)) (out _ (by omega) (by omega))]
  exact State.memWrite_of (s := s.writeWord _ _) v (by simp; omega) (by omega) (out _ (by omega) (by omega)) (out _ (by omega) (by omega))

/-- The bytes of the reply once written, and every other byte (42_dispatch R166, 20_memory R52). -/
theorem State.readByte_replyWritten {s : State} (h : s.cfg.refusal = none) (v : Word) :
    (s.replyWritten v).readByte s.cfg.replyBase.toNat =
        some (ByteOrder.first s.cfg.byteOrder s.cfg.replyLenWord) ∧
      (s.replyWritten v).readByte (s.cfg.replyBase.toNat + 1) =
        some (ByteOrder.second s.cfg.byteOrder s.cfg.replyLenWord) ∧
      (s.replyWritten v).readByte (s.cfg.replyBase.toNat + 2) = some (ByteOrder.first s.cfg.byteOrder v) ∧
      (s.replyWritten v).readByte (s.cfg.replyBase.toNat + 3) = some (ByteOrder.second s.cfg.byteOrder v) ∧
      ∀ a, a < s.cfg.replyBase.toNat ∨ s.cfg.replyBase.toNat + 4 ≤ a → (s.replyWritten v).readByte a = s.readByte a := by
  have out : ∀ a, s.cfg.replyBase.toNat ≤ a → a < s.cfg.replyBase.toNat + 4 → s.cfg.inTable a = false := fun a =>
    Config.reply_outside_table h
  obtain ⟨r0, r1⟩ := s.readByte_writeWord (a := s.cfg.replyBase.toNat) s.cfg.replyLenWord (out _ (by omega) (by omega)) (out _ (by omega) (by omega))
  obtain ⟨r2, r3⟩ :=
    (s.writeWord s.cfg.replyBase.toNat s.cfg.replyLenWord).readByte_writeWord (a := s.cfg.replyBase.toNat + 2) v
      (out _ (by omega) (by omega)) (out _ (by omega) (by omega))
  refine ⟨?_, ?_, r2, r3, fun a ha => ?_⟩
  · rw [State.replyWritten, State.readByte_writeWord_other _ _ (by omega) (by omega)]
    exact r0
  · rw [State.replyWritten, State.readByte_writeWord_other _ _ (by omega) (by omega)]
    exact r1
  · rw [State.replyWritten, State.readByte_writeWord_other _ _ (by omega) (by omega),
      State.readByte_writeWord_other _ _ (by omega) (by omega)]

end Machine

end Sys2Proof
end

