-- ==== Sys2Proof/Machine/Asm.lean ====
section
/-! DEFINITION. The assembler text of the operations (30_encoding R85) and of the pseudo-operations (R86): one line, a
mnemonic and at most one operand. Nothing in the machine depends on this file. Conventions of the text the spec does not
fix (letter case as the spec writes it, spaces between tokens, a number out of range names nothing) are DESIGN CHOICE,
log 22; safe. -/

namespace Sys2Proof.Machine

/-- The tokens of a line: the runs of characters between spaces. -/
def tokensFrom : List Char → List Char → List String
  | acc, [] => if acc.isEmpty then [] else [String.ofList acc.reverse]
  | acc, c :: rest =>
    if c = ' ' then
      if acc.isEmpty then tokensFrom [] rest else String.ofList acc.reverse :: tokensFrom [] rest
    else tokensFrom (c :: acc) rest

/-- A digit's value in a base of at most 16. -/
def digitValue (base : Nat) (c : Char) : Option Nat :=
  let n := c.toNat
  let v :=
    if 48 ≤ n ∧ n ≤ 57 then some (n - 48)
    else if 65 ≤ n ∧ n ≤ 70 then some (n - 55)
    else if 97 ≤ n ∧ n ≤ 102 then some (n - 87)
    else none
  match v with
  | some d => if d < base then some d else none
  | none => none

/-- The number a run of digits writes, continuing from `acc`. -/
def digitsFrom (base : Nat) : Nat → List Char → Option Nat
  | acc, [] => some acc
  | acc, c :: rest =>
    match digitValue base c with
    | some d => digitsFrom base (acc * base + d) rest
    | none => none

/-- A decimal or 0x hexadecimal number (30_encoding R85). -/
def numberOf (t : String) : Option Nat :=
  match t.toList with
  | [] => none
  | '0' :: 'x' :: c :: rest => digitsFrom 16 0 (c :: rest)
  | cs => digitsFrom 10 0 cs

/-- A 16-bit operand. -/
def wordOf (t : String) : Option Word :=
  match numberOf t with
  | some n => if n < 65536 then some (BitVec.ofNat 16 n) else none
  | none => none

/-- A ChannelSelector name or code (30_encoding R75, R85). -/
def channelOf (t : String) : Option Channel :=
  match t with
  | "ADC0" => some .adc0
  | "InternalTemperature" => some .internalTemperature
  | "ThermistorADC2" => some .thermistorAdc2
  | "ReferenceADC1" => some .referenceAdc1
  | _ =>
    match numberOf t with
    | some 0 => some .adc0
    | some 1 => some .internalTemperature
    | some 2 => some .thermistorAdc2
    | some 3 => some .referenceAdc1
    | _ => none

/-- A slot operand (30_encoding R85). -/
def slotOf (t : String) : Option Slot :=
  match numberOf t with
  | some 0 => some .slot0
  | some 1 => some .slot1
  | _ => none

/-- A cause operand (30_encoding R85). -/
def causeOf (t : String) : Option Cause :=
  match t with
  | "Overflow" => some .overflow
  | "Complete" => some .complete
  | _ => none

/-- A line of one token: a mnemonic with no operand, or with its operand left at its default (30_encoding R85, R86). -/
def bareLine (m : String) : Option (List Instr) :=
  match m with
  | "REQ_CYCLE" => some [.reqCycle]
  | "SLEEP" => some [.sleep]
  | "ENABLE_INT" => some [.enableInt]
  | "CALIBRATE" => some [.calibrate]
  | "REQ_FINISH" => some [.reqFinish]
  | "END" => some [.endMain]
  | "CONV_DISABLE" => some [.convDisable]
  | "RESULT_READ" => some [.resultRead 0]
  | "OV_CLEAR" => some [.ovClear]
  | "CONV_OVF_END" => some [.convOvfEnd]
  | "CONV_OVF" => some [.convOvf]
  | "ISR_COMPLETE" => some [.isrComplete 0]
  | "ISR_OVERFLOW" => some [.isrOverflow]
  | "RETI" => some [.reti]
  | "WAKE" => some [.wake]
  | "RF_IRQ_ENTRY" => some [.rfIrqEntry]
  | "DT_LOOKUP" => some [.dtLookup]
  | "DT_INVOKE" => some [.dtInvoke]
  | "CUSTOM_START" => some [.customStart]
  | "CUSTOM_FINISH" => some [.customFinish 0]
  | "RF_RETURN" => some [.rfReturn false]
  | "RESET" => some [.reset]
  | "MEASURE" => some Pseudo.measure.expand
  | _ => none

/-- A line of two tokens: a mnemonic and its operand (30_encoding R85, R86). -/
def operandLine (m o : String) : Option (List Instr) :=
  match m with
  | "CFG_START" => (channelOf o).map fun ch => [.cfgStart ch]
  | "READ_SAMPLE" => (slotOf o).map fun i => [.readSample i]
  | "CONV_IRQ_ENTRY" => (causeOf o).map fun c => [.convIrqEntry c]
  | "CONV_DONE" => (wordOf o).map fun v => [.convDone v]
  | "RF_FRAME" => (wordOf o).map fun id => [.rfFrame id]
  | "RESULT_READ" => (wordOf o).map fun d => [.resultRead d]
  | "ISR_COMPLETE" => (wordOf o).map fun d => [.isrComplete d]
  | "CUSTOM_FINISH" => (wordOf o).map fun d => [.customFinish d]
  | "REPLY_WRITE" => (wordOf o).map fun v => [.replyWrite v]
  | "RF_RETURN" => if o = "wake" then some [.rfReturn true] else none
  | "CUSTOM_CMD" => (wordOf o).map fun id => (Pseudo.customCmd id).expand
  | "SERVICE" => (causeOf o).map fun c => (Pseudo.service c).expand
  | _ => none

/-- A token that is an agent prefix (30_encoding R85): it ends in a colon. -/
def isPrefix (t : String) : Bool :=
  match t.toList.reverse with
  | ':' :: _ => true
  | _ => false

/-- The operations a line's tokens name. -/
def assembleTokens : List String → Option (List Instr)
  | [m] => bareLine m
  | [a, b] => if isPrefix a then bareLine b else operandLine a b
  | [a, m, o] => if isPrefix a then operandLine m o else none
  | _ => none

/-- The operations one line of assembler text names, a pseudo-operation expanded (30_encoding R85, R86). -/
def assemble (line : String) : Option (List Instr) := assembleTokens (tokensFrom [] line.toList)

end Sys2Proof.Machine
end

