-- ==== Sys2Proof/Tests/Slice0.lean ====
section
/-! SUPPORT. Tests: the ill-formed term, one decoding per operation from words written out by 30_encoding R72, one-step
vectors of 95_test_vectors on small states, the assembler, and a witness for the hypotheses of every obligation. -/

namespace Sys2Proof.Tests

open Sys2Proof Sys2Proof.Machine

/-! Well-formedness and decoding. -/

/-- The one ill-formed term is refused (30_encoding R77: code 0 is no cause); both converter causes are not. -/
theorem test_wellFormed :
    (Instr.convIrqEntry .rf).wellFormed = false ∧ (Instr.convIrqEntry .overflow).wellFormed = true ∧
      (Instr.convIrqEntry .complete).wellFormed = true := by decide

/-- 30_encoding R72, agent Main. -/
theorem test_decode_main :
    decodeTableWord 32 0x01000000 = some .reqCycle ∧ decodeTableWord 32 0x02000000 = some .sleep ∧
      decodeTableWord 32 0x03000000 = some .enableInt ∧ decodeTableWord 32 0x04000000 = some .calibrate ∧
      decodeTableWord 32 0x05000000 = some (.readSample .slot0) ∧
      decodeTableWord 32 0x05010000 = some (.readSample .slot1) ∧
      decodeTableWord 32 0x06000000 = some .reqFinish ∧ decodeTableWord 32 0x0F000000 = some .endMain := by decide

/-- 30_encoding R72, R75, the software operations. -/
theorem test_decode_software :
    decodeTableWord 32 0x10000000 = some (.cfgStart .adc0) ∧
      decodeTableWord 32 0x10010000 = some (.cfgStart .internalTemperature) ∧
      decodeTableWord 32 0x10020000 = some (.cfgStart .thermistorAdc2) ∧
      decodeTableWord 32 0x10030000 = some (.cfgStart .referenceAdc1) ∧
      decodeTableWord 32 0x11000000 = some .convDisable ∧ decodeTableWord 32 0x1200BEEF = some (.resultRead 0xBEEF) ∧
      decodeTableWord 32 0x13000000 = some .ovClear := by decide

/-- 30_encoding R72, agent Converter. -/
theorem test_decode_converter :
    decodeTableWord 32 0x2000FFFF = some (.convDone 0xFFFF) ∧ decodeTableWord 32 0x21000000 = some .convOvfEnd ∧
      decodeTableWord 32 0x22000000 = some .convOvf := by decide

/-- 30_encoding R72, R77, agent ConvISR. -/
theorem test_decode_convISR :
    decodeTableWord 32 0x30010000 = some (.convIrqEntry .overflow) ∧
      decodeTableWord 32 0x30020000 = some (.convIrqEntry .complete) ∧
      decodeTableWord 32 0x3100AAAA = some (.isrComplete 0xAAAA) ∧ decodeTableWord 32 0x32000000 = some .isrOverflow ∧
      decodeTableWord 32 0x33000000 = some .reti ∧ decodeTableWord 32 0x34000000 = some .wake := by decide

/-- 30_encoding R72, agents RfStack and Host. -/
theorem test_decode_rf :
    decodeTableWord 32 0x400000C0 = some (.rfFrame 0x00C0) ∧ decodeTableWord 32 0x41000000 = some .rfIrqEntry ∧
      decodeTableWord 32 0x42000000 = some .dtLookup ∧ decodeTableWord 32 0x43000000 = some .dtInvoke ∧
      decodeTableWord 32 0x44000000 = some .customStart ∧ decodeTableWord 32 0x45007777 = some (.customFinish 0x7777) ∧
      decodeTableWord 32 0x46000321 = some (.replyWrite 0x0321) ∧
      decodeTableWord 32 0x47000000 = some (.rfReturn false) ∧ decodeTableWord 32 0x47010000 = some (.rfReturn true) ∧
      decodeTableWord 32 0xFF000000 = some .reset := by decide

/-- Vectors C14a to C14d, D14d, E4, S10c: words that name no operation. -/
theorem test_decode_refuses :
    decodeTableWord 32 0x10040000 = none ∧ decodeTableWord 32 0x11000001 = none ∧
      decodeTableWord 32 0x20011234 = none ∧ decodeTableWord 32 0x00000000 = none ∧
      decodeTableWord 32 0x07000000 = none ∧ decodeTableWord 32 0x50000000 = none ∧
      decodeTableWord 32 0x47020000 = none ∧ decodeTableWord 32 0x30000000 = none ∧
      decodeTableWord 32 0x30030000 = none ∧ decodeTableWord 32 0x05020000 = none := by decide

/-- 30_encoding R85, R86: prefix, decimal and hexadecimal operands, defaults, a pseudo-operation. -/
theorem test_assemble :
    assemble "Converter: CONV_DONE 0x1234" = some [.convDone 0x1234] ∧
      assemble "CFG_START ReferenceADC1" = some [.cfgStart .referenceAdc1] ∧
      assemble "READ_SAMPLE 1" = some [.readSample .slot1] ∧ assemble "RF_RETURN" = some [.rfReturn false] ∧
      assemble "RF_RETURN wake" = some [.rfReturn true] ∧ assemble "MEASURE" = some [.reqCycle, .sleep] ∧
      assemble "SERVICE Overflow" = some [.convIrqEntry .overflow, .isrOverflow, .reti] := by decide

/-- The bytes of the table of 95_test_vectors: CE CE C0 00 00 44 CE CE at 0x0100 (20_memory R52, 30_encoding R79). -/
theorem test_table_bytes :
    ([0x100, 0x101, 0x102, 0x103, 0x104, 0x105, 0x106, 0x107, 0x108].map fun a => imageByte Config.testVectors a) =
      [some 0xCE, some 0xCE, some 0xC0, some 0x00, some 0x00, some 0x44, some 0xCE, some 0xCE, none] := by decide

/-! Small states. The configuration is 95_test_vectors' own, with a converter whose drawn fields are written out. -/

/-- A converter at reset, its drawn fields at fixed values. -/
def conv0 : Converter := ⟨false, false, .adc0, 0, 0, 0, false, false, false, false, false, 0⟩

/-- A converter configure_and_start has enabled, no conversion in flight. -/
def conv1 : Converter :=
  { conv0 with en := true, gain := 1, fdly := 2, clk := 3, bias := true, ie := true, ovie := true }

/-- The same with a reference conversion in flight. -/
def conv2 : Converter := { conv1 with sc := true, ch := .referenceAdc1 }

/-- The reset state of 95_test_vectors. -/
def base : State := { State.atReset Config.testVectors 0 with conv := conv0 }

/-- The converter handler runs for a cause. -/
def handling (c : Cause) (served : Bool) (s : State) : State :=
  { s with cpu := ⟨false, false, .convISR⟩, frame := some ⟨true, true, c, served⟩ }

/-- The RF handler runs in a phase. -/
def rfPhase (p : Option Word) (ph : Phase) (s : State) : State :=
  { s with cpu := ⟨false, false, .rfISR⟩, frame := some ⟨true, true, .rf, false⟩, rf := ⟨p, ph⟩ }

/-- The state after an event word is placed and one step taken, if there is one. -/
def after (w : Nat) (s : State) : Option State :=
  match step (s.withFetchWord 32 w) with
  | .next t => some t
  | .fault _ => none
  | .refused _ => none

/-! Converter control (vectors C1a to C14a). -/

theorem test_cfgStart :
    (after 0x10000000 base).map (fun t => t.conv) =
        some { conv1 with sc := true, ch := .adc0 } ∧
      (after 0x10030000 { base with conv := { conv1 with sc := true } }).map (fun t => (t.marks.fault, t.conv.ch)) =
        some (some .converterBusy, .adc0) := by decide

/-- Vectors C3a, C3b. -/
theorem test_cfgStart_policy :
    (after 0x10020000
          { base with
            cfg := { Config.testVectors with cfgFlagPolicy := .keep }
            conv := { conv1 with ifg := true, ovifg := true } }).map
        (fun t => (t.conv.ifg, t.conv.ovifg, t.conv.sc, t.convPending)) = some (true, true, true, true) ∧
      (after 0x10020000 { base with conv := { conv1 with ifg := true, ovifg := true } }).map
        (fun t => (t.conv.ifg, t.conv.ovifg, t.conv.sc)) = some (false, false, true) := by decide

/-- Vector C4. -/
theorem test_convDisable :
    (after 0x11000000 { base with conv := { conv2 with ovifg := true, result := 0x0042 } }).map (fun t => t.conv) =
      some { conv1 with en := false, ch := .referenceAdc1, ovifg := true, result := 0x0042 } := by decide

/-- Vectors C6, C7. -/
theorem test_resultRead :
    (after 0x12000000 { base with conv := { conv1 with ifg := true, result := 0x1234 } }).map (fun t => t.conv) =
        some { conv1 with result := 0x1234 } ∧
      ({ base with conv := { conv2 with result := 0x1234 } } : State).resultValue 0xBEEF = 0xBEEF := by decide

/-- Vector C9a. -/
theorem test_ovClear :
    (after 0x13000000 { base with conv := { conv1 with ifg := true, ovifg := true } }).map
      (fun t => (t.conv.ifg, t.conv.ovifg)) = some (true, false) := by decide

/-- Vectors C10a, C10d, C11. -/
theorem test_convDone :
    (after 0x20002222 { base with conv := { conv2 with ifg := true, result := 0x1111 } }).map
        (fun t => (t.conv.result, t.conv.ifg, t.conv.sc)) = some (0x2222, true, false) ∧
      after 0x20001234 { base with conv := conv1 } = none := by decide

/-- Vectors C12, C13a, C13b. -/
theorem test_convOvf :
    (after 0x21000000 { base with conv := { conv2 with result := 0x0042 } }).map
        (fun t => (t.conv.ovifg, t.conv.sc, t.conv.ifg, t.conv.result)) = some (true, false, false, 0x0042) ∧
      after 0x22000000 base = none ∧
      (after 0x22000000 { base with conv := conv1 }).map (fun t => t.conv.ovifg) = some true := by decide

/-- Vector C14a. -/
theorem test_badWord :
    (after 0x10040000 base).map (fun t => (t.marks.refused, t.conv, t.sched)) =
      some (some .badOperation, conv0, []) := by decide

/-! The main flow and the completion handler (vectors S1 to S17). -/

/-- Vectors S1, S2a. -/
theorem test_reqCycle :
    (after 0x01000000 base).map (fun t => (t.st, t.conv)) = some (.awaitingReference, conv2) ∧
      (after 0x01000000 { base with st := .awaitingReference, conv := conv2 }).map (fun t => t.marks.fault) =
        some (some .secondCycle) := by decide

/-- Vectors S3, S3b: StateFirst, first half and second. -/
theorem test_reqFinish_stateFirst :
    ((after 0x01000000 { base with cfg := { Config.testVectors with reqCycleOrder := .always .stateFirst } }).map
      fun t => (t.st, t.main.half, t.conv.sc, (after 0x02000000 t).isNone, (after 0x06000000 t).map fun u => u.conv)) =
      some (.awaitingReference, .startPending, false, true, some conv2) := by decide

/-- Vector S4: StartFirst, first half and second. -/
theorem test_reqFinish_startFirst :
    ((after 0x01000000 { base with cfg := { Config.testVectors with reqCycleOrder := .always .startFirst } }).map
      fun t => (t.st, t.main.half, t.conv.sc, (after 0x06000000 t).map fun u => u.st)) =
      some (.idle, .statePending, true, some .awaitingReference) := by decide

/-- Vectors S5, S15, S16. -/
theorem test_sleep :
    ((after 0x02000000 base).map fun t => (t.cpu, (after 0x04000000 t).isNone)) = some (⟨true, true, .main⟩, true) ∧
      (after 0x03000000 base).map (fun t => t.cpu) = some ⟨true, false, .main⟩ ∧
      after 0x04000000 base = some base := by decide

/-- Vectors S10a, S10b, S13. -/
theorem test_readSample :
    (after 0x05000000 base).map (fun t => t.marks.fault) = some (some .unwrittenSample) ∧
      (after 0x05010000 { base with buf := ⟨some 0x1234, some 0x0ABC⟩ }).map (fun t => t.outputs) =
        some [(.slot1, 0x0ABC)] ∧
      ((after 0x0F000000 base).map fun t => (t.main.done, (after 0x01000000 t).isNone)) = some (true, true) := by decide

/-- Vector S6. -/
theorem test_isrComplete_reference :
    (after 0x31000000
        (handling .complete false
          { base with st := .awaitingReference, conv := { conv1 with ifg := true, result := 0x1234 } })).map
      (fun t => (t.buf.slot0, t.conv.ch, t.st, t.frame)) =
      some (some 0x1234, .thermistorAdc2, .awaitingThermistor, some ⟨true, true, .complete, true⟩) := by decide

/-- Vector S7. -/
theorem test_isrComplete_thermistor :
    (after 0x31000000
        (handling .complete false
          { base with st := .awaitingThermistor, conv := { conv1 with ifg := true, result := 0x0ABC } })).map
      (fun t => (t.buf.slot1, t.conv.en, t.st, t.frame)) =
      some (some 0x0ABC, false, .idle, some ⟨false, true, .complete, true⟩) := by decide

/-- Vector S14: a stale completion faults, and nothing it wrote is kept. -/
theorem test_stale_completion :
    (after 0x3100AAAA
        (handling .complete false
          { base with
            st := .awaitingReference
            buf := ⟨some 1, some 2⟩
            conv := { conv2 with ifg := true, result := 0x7777 } })).map
      (fun t => (t.marks.fault, t.buf.slot0, t.conv.ifg, t.st)) =
      some (some .converterBusy, some 1, true, .awaitingReference) := by decide

/-- Vectors S9b, S11. -/
theorem test_isrOverflow :
    (after 0x32000000
          (handling .overflow false
            { base with st := .awaitingReference, conv := { conv2 with ovifg := true } })).map
        (fun t => (t.conv.ovifg, t.st, t.conv.sc, t.frame)) =
        some (false, .awaitingReference, true, some ⟨true, true, .overflow, true⟩) ∧
      (after 0x31000000 (handling .overflow false base)).map (fun t => t.marks.refused) =
        some (some .wrongContext) := by decide

/-- Vector S17. -/
theorem test_wake :
    (after 0x34000000 (handling .complete false base)).map (fun t => t.frame) =
      some (some ⟨false, true, .complete, false⟩) := by decide

/-! Interrupts and marks (vectors E1 to E9). -/

/-- Vectors E1, E3. -/
theorem test_convIrqEntry :
    (after 0x30020000 { base with cpu := ⟨true, true, .main⟩, conv := { conv1 with ifg := true } }).map
        (fun t => (t.cpu, t.frame, t.conv.ifg)) =
        some (⟨false, false, .convISR⟩, some ⟨true, true, .complete, false⟩, true) ∧
      after 0x30020000 { base with cpu := ⟨true, false, .main⟩, conv := { conv1 with ovifg := true } } = none := by decide

/-- Vectors E6, E7. -/
theorem test_reti :
    (after 0x33000000 (handling .complete false base)).map (fun t => t.marks.refused) = some (some .wrongContext) ∧
      (after 0x33000000 (handling .complete true base)).map (fun t => (t.cpu, t.frame)) =
        some (⟨true, true, .main⟩, none) := by decide

/-- Vectors E8, E9. -/
theorem test_marked :
    after 0x04000000 { base with marks := ⟨some .secondCycle, none⟩ } = none ∧
      (after 0xFF000000 { base with st := .awaitingReference, marks := ⟨some .secondCycle, none⟩ }).map
        (fun t => (t.marks, t.st)) = some (⟨none, none⟩, .idle) := by decide

/-! The RF side and reset (vectors D1 to D17). -/

/-- Vectors D1, D2. -/
theorem test_rfFrame :
    (after 0x400000C0 base).map (fun t => t.rf) = some ⟨some 0x00C0, .idle⟩ ∧
      after 0x40001234 { base with rf := ⟨some 0x00C0, .idle⟩ } = none := by decide

/-- Vectors D3, D4. -/
theorem test_rfIrqEntry :
    after 0x41000000 { base with rf := ⟨some 0x00C0, .idle⟩ } = none ∧
      (after 0x41000000 { base with rf := ⟨some 0x00C0, .idle⟩, cpu := ⟨true, true, .main⟩ }).map
        (fun t => (t.cpu, t.frame, t.rf.phase)) =
        some (⟨false, false, .rfISR⟩, some ⟨true, true, .rf, false⟩, .lookup) := by decide

/-- Vectors D5, D7. -/
theorem test_dtLookup :
    (after 0x42000000 (rfPhase (some 0x00C0) .lookup base)).map (fun t => t.rf) = some ⟨none, .invoke 0x4400⟩ ∧
      (after 0x42000000 (rfPhase (some 0xCECE) .lookup base)).map (fun t => t.rf) = some ⟨none, .done⟩ := by decide

/-- Vector D9, and an address with no handler (42_dispatch R164). -/
theorem test_dtInvoke :
    (after 0x43000000 (rfPhase none (.invoke 0x4400) base)).map (fun t => t.rf.phase) = some .start ∧
      (after 0x43000000 (rfPhase none (.invoke 0x4402) base)).map (fun t => t.marks.refused) =
        some (some .unknownHandler) := by decide

/-- Vectors D10, D11. -/
theorem test_customStart :
    (after 0x44000000 (rfPhase none .start base)).map (fun t => (t.conv, t.rf.phase)) =
        some ({ conv1 with sc := true, ch := .internalTemperature }, .wait) ∧
      (after 0x44000000 (rfPhase none .start { base with conv := conv2 })).map
        (fun t => (t.marks.fault, t.rf.phase, t.conv.ch)) = some (some .converterBusy, .start, .referenceAdc1) := by decide

/-- Vectors D12, D13b. -/
theorem test_customFinish :
    (after 0x45000000 (rfPhase none .wait { base with conv := { conv1 with ifg := true, result := 0x0321 } })).map
        (fun t => (t.reply, t.mem, t.conv.ifg, t.rf.phase)) =
        some (⟨some 0, some 0x0321⟩, [(0x200, 0x00), (0x201, 0x00), (0x202, 0x21), (0x203, 0x03)], false, .done) ∧
      after 0x45007777
          (rfPhase none .wait
            { base with cfg := { Config.testVectors with delaySufficient := true }, conv := conv2 }) = none := by decide

/-- Vectors D15a, D17. -/
theorem test_replyWrite :
    (after 0x46000321 (rfPhase none .wait { base with cfg := { Config.testVectors with byteOrder := .big } })).map
        (fun t => t.mem) = some [(0x200, 0x00), (0x201, 0x00), (0x202, 0x03), (0x203, 0x21)] ∧
      (after 0x46000321 base).map (fun t => t.marks.refused) = some (some .wrongContext) := by decide

/-- Vectors D14a, D14b. -/
theorem test_rfReturn :
    (after 0x47000000 (rfPhase none .done base)).map (fun t => (t.cpu, t.frame, t.rf)) =
        some (⟨true, true, .main⟩, none, ⟨none, .idle⟩) ∧
      (after 0x47010000 (rfPhase none .done base)).map (fun t => t.cpu) = some ⟨true, false, .main⟩ := by decide

/-- Vectors D8a to D8c, D16a to D16c: the configurations RESET refuses. -/
theorem test_reset_checks :
    ([{ Config.testVectors with dtImage := [0xCECE, 0xCECE, 0x4400, 0xCECE] },
          { Config.testVectors with dtImage := [0xCECE, 0x00C0, 0x4400, 0xCECF] },
          { Config.testVectors with dtImage := [0xCECE, 0x00C0, 0x4402, 0xCECE] },
          { Config.testVectors with dtBase := 0x0101 }, { Config.testVectors with replyBase := 0x0104 },
          { Config.testVectors with dtBase := 0xFFFC }].map fun c =>
        (after 0xFF000000 { base with cfg := c }).map fun t => t.marks.refused) =
      [some (some .illFormedTable), some (some .illFormedTable), some (some .illFormedTable),
        some (some .misaligned), some (some .overlap), some (some .addressWrap)] := by decide

/-! Witnesses: states and operands that meet the hypotheses of each obligation, clause by clause. -/

theorem test_ready :
    MainReady base ∧ HandlerReady (handling .complete false base) .convISR ∧
      HandlerReady (rfPhase none .done base) .rfISR ∧ SoftwareReady base ∧ SoftwareReady (handling .overflow false base) ∧
      EntryReady { base with cpu := ⟨true, true, .main⟩ } ∧ FinishReady base ∧ Config.testVectors.refusal = none :=
  ⟨⟨⟨rfl, rfl⟩, rfl, rfl, rfl, rfl⟩, ⟨⟨rfl, rfl⟩, rfl⟩, ⟨⟨rfl, rfl⟩, rfl⟩, .inr ⟨⟨rfl, rfl⟩, rfl, rfl, rfl, rfl⟩,
    .inl ⟨⟨rfl, rfl⟩, by decide⟩, ⟨⟨rfl, rfl⟩, rfl, rfl, rfl⟩, ⟨⟨rfl, rfl⟩, rfl, rfl⟩, by decide⟩

/-- DecodeOfEncode: the operands at their ends. -/
theorem test_witness_DecodeOfEncode :
    (Instr.convIrqEntry .complete).wellFormed = true ∧ (Instr.isrComplete 0xFFFF).wellFormed = true ∧
      (Instr.rfReturn true).wellFormed = true := by decide

theorem test_witness_EncodeOfDecode :
    decode 0x47010000 = .ok (.rfReturn true) ∧ decode 0x4600FFFF = .ok (.replyWrite 0xFFFF) := ⟨rfl, rfl⟩

/-- UnnamedWordsAreRefused: reserved ops next to used ones, an unused bit, and both reserved cause codes. -/
theorem test_witness_UnnamedWordsAreRefused :
    (opField 0x07000000 ∉
        ([0x01, 0x02, 0x03, 0x04, 0x05, 0x06, 0x0F, 0x10, 0x11, 0x12, 0x13, 0x20, 0x21, 0x22, 0x30, 0x31, 0x32, 0x33,
          0x34, 0x40, 0x41, 0x42, 0x43, 0x44, 0x45, 0x46, 0x47, 0xFF] : List (BitVec 8))) ∧
      Unmarked { base with sched := [0x30030000] } ∧
      (∀ i : Instr, i.wellFormed = true → encode i ≠ 0x11000001) ∧
      (∀ i : Instr, i.wellFormed = true → encode i ≠ 0x30000000) ∧
      ∀ i : Instr, i.wellFormed = true → encode i ≠ 0x30030000 := by
  refine ⟨by decide, ⟨rfl, rfl⟩, ?_, ?_, ?_⟩ <;> intro i hw h <;>
    have h1 := (opField_encode i).symm.trans (congrArg opField h) <;>
    have h2 := (selField_encode i).symm.trans (congrArg selField h) <;>
    have h3 := (dataField_encode i).symm.trans (congrArg dataField h) <;>
    cases i <;> first | (exfalso; revert h1; simp only [Instr.op]; decide) | exact absurd h3 (by decide) | skip
  all_goals
    rename_i c
    cases c <;> first | exact absurd h2 (by decide) | exact absurd hw (by decide)

theorem test_witness_StepRunsDecodedWord :
    ({ base with sched := [0x01000000, 0x02000000] } : State).sched = 0x01000000 :: [0x02000000] ∧
      decode 0x01000000 = .ok .reqCycle ∧ (Instr.rfReturn true).wellFormed = true := ⟨rfl, rfl, rfl⟩

theorem inv_base : Machine.Inv base where
  frameCtx := by decide
  masked := by decide
  savedGie := fun _ h => nomatch h
  causeCtx := fun _ h => nomatch h
  flightEnabled := by decide
  startedEnables := by decide
  flagEnables := by decide
  legalSt := by decide
  phaseCtx := by decide
  lookupPending := by decide
  laterNotPending := by decide
  halfIdle := by decide
  doneWhole := by decide
  fieldsFit := by decide
  memory := ⟨by decide, by decide⟩

/-- A handler runs, a conversion is in flight, and the reply has been written. -/
theorem inv_handling :
    Machine.Inv
      (handling .complete false
        { base with
          st := .awaitingThermistor
          conv := { conv2 with ifg := true }
          mem := [(0x200, 0x00), (0x203, 0x03)]
          sched := [0x3100AAAA] }) where
  frameCtx := by decide
  masked := by decide
  savedGie := fun _ h => by cases h; rfl
  causeCtx := fun _ h => by cases h; decide
  flightEnabled := by decide
  startedEnables := by decide
  flagEnables := by decide
  legalSt := by decide
  phaseCtx := by decide
  lookupPending := by decide
  laterNotPending := by decide
  halfIdle := by decide
  doneWhole := by decide
  fieldsFit := by decide
  memory := ⟨by decide, by decide⟩

/-- StepKeepsInv and SequencerFollowsCycle: a state whose step completes. -/
theorem test_witness_StepKeepsInv :
    ∃ t,
      step
          (handling .complete false
            { base with
              st := .awaitingThermistor
              conv := { conv2 with ifg := true }
              mem := [(0x200, 0x00), (0x203, 0x03)]
              sched := [0x3100AAAA] }) = .next t ∧
        t.st = .idle ∧ t.buf.slot1 = some 0xAAAA := ⟨_, rfl, rfl, rfl⟩

/-- SequencerFollowsCycle: each of the three moves is made, and the words are not RESET. -/
theorem test_witness_SequencerFollowsCycle :
    (after 0x01000000 base).map (fun t => t.st) = some .awaitingReference ∧
      (after 0x31000000 (handling .complete false { base with st := .awaitingReference, conv := conv1 })).map
        (fun t => t.st) = some .awaitingThermistor ∧
      (after 0x31000000 (handling .complete false { base with st := .awaitingThermistor, conv := conv1 })).map
        (fun t => t.st) = some .idle ∧
      decodeTableWord 32 0x3100AAAA ≠ some .reset := by decide

theorem test_witness_OnlyCycleOperationsWriteSt :
    (∃ t, exec .reqCycle base = .next t ∧ t.st ≠ base.st) ∧
      (∃ t, exec .reqFinish { base with main := ⟨.statePending, false⟩ } = .next t ∧ t.st ≠ .idle) ∧
      (∃ t, exec (.isrComplete 0) (handling .complete false { base with st := .awaitingThermistor }) = .next t ∧
          t.st ≠ .awaitingThermistor) ∧
      ∃ t, exec .reset { base with st := .awaitingReference } = .next t ∧ t.st ≠ .awaitingReference :=
  ⟨⟨_, rfl, by decide⟩, ⟨_, rfl, by decide⟩, ⟨_, rfl, by decide⟩, ⟨_, rfl, by decide⟩⟩

theorem test_witness_OverflowArmLeavesStAndBuf :
    ∃ t, exec .isrOverflow (handling .overflow false { base with conv := { conv2 with ovifg := true } }) = .next t :=
  ⟨_, rfl⟩

theorem test_witness_MarkedStateStepsOnlyByReset :
    ¬ Unmarked { base with marks := ⟨none, some .wrongContext⟩ } ∧ ¬ Unmarked { base with marks := ⟨some .secondCycle, none⟩ } ∧
      Config.testVectors.refusal = none :=
  ⟨(fun h => nomatch h.2), (fun h => nomatch h.1), by decide⟩

theorem test_witness_MarkingWritesOnlyTheMark :
    (∃ t, exec (.readSample .slot0) base = .next t ∧ base.marks.fault = none ∧ t.marks.fault ≠ none) ∧
      ∃ t, exec .wake base = .next t ∧ base.marks.refused = none ∧ t.marks.refused ≠ none :=
  ⟨⟨_, rfl, rfl, by decide⟩, ⟨_, rfl, rfl, by decide⟩⟩

theorem test_witness_ConfigurationIsNeverWritten : exec .calibrate base = .next base := rfl

/-- CfgStartStartsConversion, CfgStartWithoutFaultConfigures, CfgStartWhileBusyFaults: from the main flow and from a
handler, free and busy; ConvDisableAborts, ResultReadClearsIfg and OvClearClearsOvifg have the same hypotheses on the context, which
fails asleep, between halves and after END. -/
theorem test_witness_CfgStart :
    SoftwareReady base ∧ base.conv.sc = false ∧ SoftwareReady (rfPhase none .start { base with conv := conv2 }) ∧
      (rfPhase none .start { base with conv := conv2 }).conv.sc = true ∧
      (∃ t, exec (.cfgStart .adc0) base = .next t ∧ t.marks.fault = none) ∧
      ¬ SoftwareReady { base with cpu := ⟨true, true, .main⟩ } ∧
      ¬ SoftwareReady { base with main := ⟨.startPending, false⟩ } ∧ ¬ SoftwareReady { base with main := ⟨.none, true⟩ } :=
  ⟨.inr ⟨⟨rfl, rfl⟩, rfl, rfl, rfl, rfl⟩, rfl, .inl ⟨⟨rfl, rfl⟩, by decide⟩, rfl, ⟨_, rfl, rfl⟩,
    fun h => h.elim (fun h => h.2 rfl) (fun h => nomatch h.awake), fun h => h.elim (fun h => h.2 rfl) (fun h => nomatch h.whole),
    fun h => h.elim (fun h => h.2 rfl) (fun h => nomatch h.running)⟩

/-- ConvDoneLatchesResult, ConvOvfEndDropsSample, ConvOvfFlagsOverflow, DisabledConverterIsSilent. -/
theorem test_witness_Converter :
    (Unmarked { base with conv := conv2 } ∧ conv2.en = true ∧ conv2.sc = true ∧ base.cfg.ovfSpurious = true) ∧
      ¬ (Unmarked { base with conv := conv1 } ∧ conv1.en = true ∧ conv1.sc = true) ∧
      ¬ (Unmarked base ∧ base.conv.en = true ∧ base.cfg.ovfSpurious = true) ∧
      (Instr.convOvf.agent = .converter ∧ base.conv.en = false) :=
  ⟨⟨⟨rfl, rfl⟩, rfl, rfl, rfl⟩, (fun h => nomatch h.2.2), (fun h => nomatch h.2.1), rfl, rfl⟩

/-- ReqCycleStartsReference: with a draw, and with a conversion in flight under StateFirst. -/
theorem test_witness_ReqCycleStartsReference :
    (MainReady { base with cfg := { Config.testVectors with reqCycleOrder := .any } } ∧ base.st = .idle ∧
        base.conv.sc = false) ∧
      MainReady { base with cfg := { Config.testVectors with reqCycleOrder := .always .stateFirst }, conv := conv2 } :=
  ⟨⟨⟨⟨rfl, rfl⟩, rfl, rfl, rfl, rfl⟩, rfl, rfl⟩, ⟨rfl, rfl⟩, rfl, rfl, rfl, rfl⟩

theorem test_witness_ReqCycleFaults :
    (MainReady { base with st := .awaitingThermistor } ∧ SampleState.awaitingThermistor ≠ .idle) ∧
      (MainReady { base with st := .reserved } ∧ SampleState.reserved ≠ .idle) ∧
      MainReady { base with conv := conv2 } ∧ base.st = .idle ∧ conv2.sc = true ∧
      base.cfg.reqCycleOrder = .always .atomic ∧ RequestOrder.atomic ≠ .stateFirst ∧
      MainReady { base with cfg := { Config.testVectors with reqCycleOrder := .any }, conv := conv2 } :=
  ⟨⟨⟨⟨rfl, rfl⟩, rfl, rfl, rfl, rfl⟩, by decide⟩, ⟨⟨⟨rfl, rfl⟩, rfl, rfl, rfl, rfl⟩, by decide⟩,
    ⟨⟨rfl, rfl⟩, rfl, rfl, rfl, rfl⟩, rfl, rfl, rfl, by decide, ⟨rfl, rfl⟩, rfl, rfl, rfl, rfl⟩

theorem test_witness_ReqFinishCompletesRequest :
    (FinishReady { base with main := ⟨.startPending, false⟩ } ∧ base.conv.sc = false) ∧
      (FinishReady { base with main := ⟨.startPending, false⟩, conv := conv2 } ∧ conv2.sc = true) ∧
      FinishReady { base with main := ⟨.statePending, false⟩ } ∧ FinishReady base ∧ base.main.half = .none :=
  ⟨⟨⟨⟨rfl, rfl⟩, rfl, rfl⟩, rfl⟩, ⟨⟨⟨rfl, rfl⟩, rfl, rfl⟩, rfl⟩, ⟨⟨rfl, rfl⟩, rfl, rfl⟩, ⟨⟨rfl, rfl⟩, rfl, rfl⟩, rfl⟩

/-- SleepSetsBothBits, EnableIntSetsGie, CalibrateChangesNothing, EndStopsMainFlow, ReadSampleOutputsSlot. -/
theorem test_witness_MainFlow :
    MainReady base ∧ ¬ MainReady { base with cpu := ⟨true, true, .main⟩ } ∧
      ¬ MainReady { base with main := ⟨.none, true⟩ } ∧ base.slot .slot0 = none ∧
      MainReady { base with buf := ⟨none, some 0x0ABC⟩ } ∧
      ({ base with buf := ⟨none, some 0x0ABC⟩ } : State).slot .slot1 = some 0x0ABC :=
  ⟨⟨⟨rfl, rfl⟩, rfl, rfl, rfl, rfl⟩, (fun h => nomatch h.awake), (fun h => nomatch h.running), rfl,
    ⟨⟨rfl, rfl⟩, rfl, rfl, rfl, rfl⟩, rfl⟩

theorem test_witness_ContextLegality :
    (Instr.sleep.agent = .main ∧ (handling .complete false base).cpu.ctx ≠ .main) ∧
      ({ base with cpu := ⟨true, true, .main⟩ } : State).cpu.lpm = true ∧ base.cpu.gie = false ∧
      handlerCtx .wake = some .convISR ∧ Unmarked base ∧ base.cpu.ctx ≠ .convISR ∧
      handlerCtx .dtLookup = some .rfISR ∧ (handling .complete false base).cpu.ctx ≠ .rfISR := by
  refine ⟨by decide, rfl, rfl, rfl, ⟨rfl, rfl⟩, by decide, rfl, by decide⟩

theorem test_witness_SplitRequestBlocksMainFlow :
    Instr.sleep.agent = .main ∧ Instr.sleep ≠ .reqFinish ∧
      ({ base with main := ⟨.statePending, false⟩ } : State).main.half ≠ .none ∧
      ({ base with main := ⟨.none, true⟩ } : State).main.done = true := by decide

/-- IsrCompleteStoresReference, IsrCompleteFinishesCycle and IsrCompleteOutsideCycle: the frame, with every arm's state
and a conversion in flight or not; a frame for the other cause, and one already served. -/
theorem test_witness_IsrComplete :
    (∀ st c, HandlerReady (handling .complete false { base with st := st, conv := c }) .convISR) ∧
      (handling .complete false base).frame = some ⟨true, true, .complete, false⟩ ∧
      (base.cfg.idleCompletion = .discard ∧
        HandlerReady
          (handling .complete false { base with cfg := { Config.testVectors with idleCompletion := .fault } }) .convISR) ∧
      (HandlerReady (handling .overflow false base) .convISR ∧
        ∀ f, (handling .overflow false base).frame = some f → f.cause ≠ .complete ∨ f.served = true) ∧
      ∀ f, (handling .complete true base).frame = some f → f.cause ≠ .complete ∨ f.served = true :=
  ⟨fun _ _ => ⟨⟨rfl, rfl⟩, rfl⟩, rfl, ⟨rfl, ⟨⟨rfl, rfl⟩, rfl⟩⟩,
    ⟨⟨⟨rfl, rfl⟩, rfl⟩, fun f h => by cases h; decide⟩, fun f h => by cases h; decide⟩

/-- IsrOverflowClearsOvifg, WakeClearsSavedLpm, RetiRestoresSavedBits. -/
theorem test_witness_ConvHandler :
    (handling .overflow false base).frame = some ⟨true, true, .overflow, false⟩ ∧
      HandlerReady (handling .overflow true base) .convISR ∧
      (∀ f, (handling .complete false base).frame = some f → f.cause ≠ .overflow ∨ f.served = true) ∧
      (∃ s : State, s.cpu.ctx = .convISR ∧ s.frame = none) ∧
      (handling .complete true base).frame = some ⟨true, true, .complete, true⟩ :=
  ⟨rfl, ⟨⟨rfl, rfl⟩, rfl⟩, fun f h => by cases h; decide,
    ⟨{ base with cpu := ⟨false, false, .convISR⟩ }, rfl, rfl⟩, rfl⟩

/-- ConvIrqEntrySavesFrame: both causes, and neither; RfIrqEntrySavesFrame. -/
theorem test_witness_InterruptEntry :
    EntryReady { base with cpu := ⟨true, true, .main⟩, conv := { conv1 with ifg := true, ovifg := true } } ∧
      InCauses { conv1 with ifg := true, ovifg := true } .complete ∧
      InCauses { conv1 with ifg := true, ovifg := true } .overflow ∧
      ¬ (EntryReady base ∧ InCauses base.conv .complete) ∧
      (EntryReady { base with cpu := ⟨true, false, .main⟩, rf := ⟨some 0x00C0, .idle⟩ } ∧ some 0x00C0#16 ≠ none) ∧
      ¬ (EntryReady base ∧ base.rf.pending ≠ none) :=
  ⟨⟨⟨rfl, rfl⟩, rfl, rfl, rfl⟩, ⟨rfl, rfl⟩, ⟨rfl, rfl⟩, (fun h => nomatch h.1.gie),
    ⟨⟨⟨rfl, rfl⟩, rfl, rfl, rfl⟩, by decide⟩, (fun h => nomatch h.1.gie)⟩

theorem test_witness_RfFrameIsPending :
    (Unmarked base ∧ base.rf.pending = none ∧ base.rf.phase = .idle) ∧
      ¬ (Unmarked { base with rf := ⟨some 1, .idle⟩ } ∧ some 1#16 = none ∧ Phase.idle = .idle) ∧
      ¬ (Unmarked base ∧ (none : Option Word) = none ∧ Phase.done = .idle) :=
  ⟨⟨⟨rfl, rfl⟩, rfl, rfl⟩, (fun h => nomatch h.2.1), (fun h => nomatch h.2.2)⟩

/-- LookupFindsConfiguredCommand and LookupOfOtherIdFindsNothing: the configured id, another, and the key; and another
phase. -/
theorem test_witness_Lookup :
    Config.testVectors.refusal = none ∧ Config.testVectors.dtImage = Config.testVectors.oneEntryImage ∧
      (∀ p, MemoryInv (rfPhase p .lookup base) ∧ HandlerReady (rfPhase p .lookup base) .rfISR) ∧
      (rfPhase (some 0x00C0) .lookup base).rf.pending = some Config.testVectors.cmdId ∧
      (0x1234 : Word) ≠ Config.testVectors.cmdId ∧ Config.testVectors.dtKey ≠ Config.testVectors.cmdId ∧
      (HandlerReady (rfPhase none .done base) .rfISR ∧ Phase.done ≠ .lookup) :=
  ⟨by decide, rfl, fun _ => ⟨⟨rfl, (fun _ h => nomatch h)⟩, ⟨⟨rfl, rfl⟩, rfl⟩⟩, rfl, by decide, by decide,
    ⟨⟨⟨rfl, rfl⟩, rfl⟩, by decide⟩⟩

/-- InvokeEntersHandler, CustomStartConverts. -/
theorem test_witness_Invoke :
    (∀ p, HandlerReady (rfPhase none p base) .rfISR ∧ HandlerReady (rfPhase none p { base with conv := conv2 }) .rfISR) ∧
      Phase.invoke base.cfg.handlerAddr = .invoke 0x4400 ∧ (0x4402 : Word) ≠ base.cfg.handlerAddr ∧
      (∀ a, Phase.start ≠ .invoke a) ∧ Phase.wait ≠ .start :=
  ⟨fun _ => ⟨⟨⟨rfl, rfl⟩, rfl⟩, ⟨⟨rfl, rfl⟩, rfl⟩⟩, rfl, by decide, (fun _ h => nomatch h), (fun h => nomatch h)⟩

/-- CustomFinishReplies: waiting, and not; ReplyWriteStoresTwoWords: both byte orders. -/
theorem test_witness_CustomFinish :
    (HandlerReady
          (rfPhase none .wait
            { base with cfg := { Config.testVectors with delaySufficient := true }, conv := conv2 }) .rfISR ∧
        ({ Config.testVectors with delaySufficient := true } : Config).refusal = none ∧ conv2.sc = true) ∧
      (HandlerReady (rfPhase none .wait { base with conv := conv2 }) .rfISR ∧ base.cfg.delaySufficient = false) ∧
      HandlerReady (rfPhase none .wait { base with cfg := { Config.testVectors with byteOrder := .big } }) .rfISR ∧
      ({ Config.testVectors with byteOrder := .big } : Config).refusal = none ∧ base.cfg.byteOrder = .little ∧
      (HandlerReady (rfPhase none .start base) .rfISR ∧ Phase.start ≠ .wait) :=
  ⟨⟨⟨⟨rfl, rfl⟩, rfl⟩, by decide, rfl⟩, ⟨⟨⟨rfl, rfl⟩, rfl⟩, rfl⟩, ⟨⟨rfl, rfl⟩, rfl⟩, by decide, rfl,
    ⟨⟨⟨rfl, rfl⟩, rfl⟩, by decide⟩⟩

theorem test_witness_RfReturnRestoresSavedBits :
    HandlerReady (rfPhase none .done base) .rfISR ∧ base.cfg.rfIsrMayWake = true ∧
      (rfPhase none .done base).frame = some ⟨true, true, .rf, false⟩ ∧
      HandlerReady
        (rfPhase none .done { base with cfg := { Config.testVectors with rfIsrMayWake := false } }) .rfISR ∧
      Phase.wait ≠ .done :=
  ⟨⟨⟨rfl, rfl⟩, rfl⟩, rfl, rfl, ⟨⟨rfl, rfl⟩, rfl⟩, (fun h => nomatch h)⟩

/-- ResetChecksConfiguration, clause by clause, each at the edge of its range; the last line passes every check. -/
theorem test_witness_ResetChecksConfiguration :
    base.marks.refused = none ∧
      ([0xCECE, 0xCECE, 0x4400, 0xCECE] : List Word)[1]? = some Config.testVectors.dtKey ∧
      ({ Config.testVectors with replyBase := 0x0201 } : Config).imageWellFormed = true ∧
      ({ Config.testVectors with dtBase := 0xFFFA } : Config).imageWellFormed = true ∧ 65536 < 0xFFFA + 8 ∧
      ({ Config.testVectors with replyBase := 0x0106 } : Config).imageWellFormed = true ∧ 0x0106 < 0x0100 + 8 ∧
      ({ Config.testVectors with replyBase := 0x0108 } : Config).refusal = none ∧
      ({ Config.testVectors with dtBase := 0xFFF8 } : Config).refusal = none ∧
      ({ Config.testVectors with replyBase := 0xFFFC } : Config).refusal = none := by decide

/-- RfSideIsBlindToSequencer, ConverterAndFrameStepsAreConfined. -/
theorem test_witness_Isolation :
    rfSide (.customFinish 0) = true ∧ rfSide (.rfFrame 0) = true ∧ (∃ t, exec .customStart (rfPhase none .start base) = .next t) ∧
      (∃ t, exec (.convDone 5) { base with conv := conv2 } = .next t) ∧ ∃ t, exec (.rfFrame 0xFFFF) base = .next t :=
  ⟨rfl, rfl, ⟨_, rfl⟩, ⟨_, rfl⟩, ⟨_, rfl⟩⟩

/-- SavedLpmClearedOnlyByWake, asleep without a frame: a step that leaves it so, and an entry. -/
theorem test_witness_SleepingMainFlow :
    (∃ t, exec (.convDone 5) { base with cpu := ⟨true, true, .main⟩, conv := conv2 } = .next t ∧ t.cpu.lpm = true) ∧
      (∃ t, exec (.convIrqEntry .complete)
            { base with cpu := ⟨true, true, .main⟩, conv := { conv1 with ifg := true } } = .next t ∧ t.cpu.lpm = false) ∧
      base.frame = none :=
  ⟨⟨_, rfl, rfl⟩, ⟨_, rfl, rfl⟩, rfl⟩

theorem test_witness_SavedLpmClearedOnlyByWake :
    (∃ t f g, exec .wake (handling .complete false base) = .next t ∧
        (handling .complete false base).frame = some f ∧ f.lpm = true ∧ t.frame = some g ∧ g.lpm = false) ∧
      (∃ t, exec .reti (handling .complete true base) = .next t ∧ t.frame = none ∧ t.cpu.lpm = true) ∧
      ∃ t, exec (.rfReturn true) (rfPhase none .done base) = .next t ∧ t.frame = none ∧ t.cpu.lpm = false :=
  ⟨⟨_, _, _, rfl, rfl, rfl, rfl, rfl⟩, ⟨_, rfl, rfl, rfl⟩, ⟨_, rfl, rfl, rfl⟩⟩

/-- BufferSlotsWrittenByArms, EnablesStayAndResultIsTheConverters. -/
theorem test_witness_Writers :
    (∃ t, exec (.isrComplete 0) (handling .complete false { base with st := .awaitingReference, conv := conv1 }) = .next t ∧
        t.buf.slot0 ≠ none) ∧
      (∃ t, exec (.isrComplete 0xBEEF)
            (handling .complete false { base with st := .awaitingThermistor, buf := ⟨some 1, some 2⟩, conv := conv2 }) =
          .next t ∧ t.buf = ⟨some 1, some 0xBEEF⟩) ∧
      ∃ t, exec (.convDone 5) { base with conv := conv2 } = .next t ∧ t.conv.result ≠ conv2.result ∧ conv2.ie = true :=
  ⟨⟨_, rfl, by decide⟩, ⟨_, rfl, rfl⟩, ⟨_, rfl, by decide, rfl⟩⟩

/-- LostWakeIsStuck: the end of program P4 of 95_test_vectors. -/
theorem test_witness_LostWakeIsStuck :
    ∃ s : State, s.cpu.ctx = .main ∧ s.cpu.lpm = true ∧ s.main.done = false ∧ s.conv.en = false ∧ s.conv.ifg = false ∧
      s.conv.ovifg = false ∧ s.rf.pending = none :=
  ⟨{ base with
      buf := ⟨some 0x1111, some 0x2222⟩
      conv := { conv1 with en := false }
      cpu := ⟨true, true, .main⟩ },
    rfl, rfl, rfl, rfl, rfl, rfl, rfl⟩

/-- A run in which a conversion completes and the main flow then calibrates for ever. -/
def fairStates : Nat → State
  | 0 => { base with conv := conv2 }
  | _ + 1 => { base with conv := { conv2 with result := 5, ifg := true, sc := false } }

/-- Its operations. -/
def fairEvents : Nat → Instr
  | 0 => .convDone 5
  | _ + 1 => .calibrate

theorem test_witness_FairConversionEnds :
    IsRun fairStates fairEvents ∧ WeaklyFair fairStates fairEvents ∧ (fairStates 0).conv.en = true ∧
      (fairStates 0).conv.sc = true := by
  have shut : ∀ m, ¬ EntryReady (fairStates m) := fun m h => by cases m <;> exact nomatch h.gie
  refine ⟨fun n => by cases n <;> rfl, ⟨?_, ?_, ?_, ?_⟩, rfl, rfl⟩
  · exact fun c n h => absurd (h n (Nat.le_refl n)).1 (shut n)
  · exact fun n h => absurd (h n (Nat.le_refl n)).1 (shut n)
  · exact fun n h => absurd (show (fairStates n).cpu.ctx = .main by cases n <;> rfl) h
  · exact fun n _ _ => ⟨n + 1, Nat.le_succ n, rfl⟩

end Sys2Proof.Tests
end

section
/-! SUPPORT. What each operation may write, said once for every operation: its parts of the state (a frame lemma over
`exec`), its writes to CONV as a sequence of the writes of 40_converter_control, and its writes to `buf`. -/

namespace Sys2Proof.Machine

/-! The parts an operation writes. -/

/-- The parts of the state an operation writes where its body completes (30_encoding R72). -/
def writes : Instr → List Part
  | .reqCycle => [.st, .conv, .main]
  | .sleep => [.cpu]
  | .enableInt => [.cpu]
  | .calibrate => []
  | .readSample _ => [.outputs]
  | .reqFinish => [.st, .conv, .main]
  | .endMain => [.main]
  | .cfgStart _ => [.conv]
  | .convDisable => [.conv]
  | .resultRead _ => [.conv]
  | .ovClear => [.conv]
  | .convDone _ => [.conv]
  | .convOvfEnd => [.conv]
  | .convOvf => [.conv]
  | .convIrqEntry _ => [.cpu, .frame]
  | .isrComplete _ => [.st, .buf, .conv, .frame]
  | .isrOverflow => [.conv, .frame]
  | .reti => [.cpu, .frame]
  | .wake => [.frame]
  | .rfFrame _ => [.rf]
  | .rfIrqEntry => [.cpu, .frame, .rf]
  | .dtLookup => [.rf]
  | .dtInvoke => [.rf]
  | .customStart => [.conv, .rf]
  | .customFinish _ => [.conv, .rf, .mem]
  | .replyWrite _ => [.mem]
  | .rfReturn _ => [.cpu, .frame, .rf]
  | .reset => [.st, .buf, .conv, .cpu, .frame, .main, .rf, .mem, .marks]

@[simp] theorem cfg_notMem_writes (i : Instr) : Part.cfg ∉ writes i := by cases i <;> simp [writes]

@[simp] theorem sched_notMem_writes (i : Instr) : Part.sched ∉ writes i := by cases i <;> simp [writes]

/-- `UnchangedExcept`, with data memory unchanged as a list too, not only as read. -/
structure FrameExcept (ps : List Part) (s t : State) : Prop where
  parts : UnchangedExcept ps s t
  mem : .mem ∉ ps → t.mem = s.mem

variable {s t : State} {i : Instr}

theorem FrameExcept.mono {ps qs : List Part} (hs : ps ⊆ qs) (h : FrameExcept ps s t) : FrameExcept qs s t :=
  ⟨fun p hp => h.parts p fun hq => hp (hs hq), fun hp => h.mem fun hq => hp (hs hq)⟩

theorem frame_marks (s : State) (m : Marks) : FrameExcept [.marks] s { s with marks := m } := by
  refine ⟨fun p hp => ?_, fun _ => rfl⟩
  cases p <;> simp [Part.same, State.readByte] at hp ⊢

theorem frame_raiseFault (s : State) (r : FaultReason) : FrameExcept [.marks] s (s.raiseFault r) := frame_marks s _

theorem frame_refuse (s : State) (r : RefusalReason) : FrameExcept [.marks] s (s.refuse r) := frame_marks s _

theorem frame_schedOutputs (s : State) (l : List EventWord) (o : List (Slot × Word)) :
    FrameExcept [.sched, .outputs] s { s with sched := l, outputs := o } := by
  refine ⟨fun p hp => ?_, fun _ => rfl⟩
  cases p <;> simp [Part.same, State.readByte] at hp ⊢

theorem frame_requestBy (s : State) (o : RequestOrder) : FrameExcept [.st, .conv, .main] s (s.requestBy o) := by
  cases o <;>
    · refine ⟨fun p hp => ?_, fun _ => rfl⟩
      cases p <;> simp [Part.same, State.readByte, State.requestBy] at hp ⊢

theorem frame_afterReset (s : State) : FrameExcept (writes .reset) s s.afterReset := by
  cases h : s.cfg.refusal with
  | some r =>
    rw [State.afterReset_refused h]
    exact (frame_refuse s r).mono (by simp [writes])
  | none =>
    rw [State.afterReset_runs h]
    refine ⟨fun p hp => ?_, fun hp => absurd hp (by simp [writes])⟩
    cases p <;> simp [Part.same, writes] at hp ⊢

/-- A body that completes writes the parts of `writes` alone. -/
theorem frame_opBody (hb : opBody i s = .ok t) : FrameExcept (writes i) s t := by
  cases i <;>
    simp only [opBody, gate_ok, handlerGate_ok, Except.ok.injEq, State.request_ok, State.finishRequest_ok,
      State.readSlot_ok, State.configureAndStart_ok, State.serveComplete_ok, State.completeArm_ok,
      State.completeIdle_ok, State.completeReference_ok, State.serveOverflow_ok, State.returnServed_ok,
      State.lookupPending_ok, State.invokeHandler_ok, State.customBegin_ok, State.rfReturnBody_ok] at hb
  case reqCycle => obtain ⟨-, -, -, rfl⟩ := hb; exact frame_requestBy s _
  case reset => subst hb; exact frame_afterReset s
  case' reqFinish => obtain ⟨-, ⟨-, -, rfl⟩ | ⟨-, rfl⟩⟩ := hb
  case' readSample => obtain ⟨-, _, -, rfl⟩ := hb
  case' cfgStart => obtain ⟨-, -, rfl⟩ := hb
  case' isrComplete => obtain ⟨-, -, -, _, ⟨-, -, rfl⟩ | ⟨-, -, rfl⟩ | ⟨-, rfl⟩, rfl⟩ := hb
  case' isrOverflow | dtInvoke | customStart => obtain ⟨-, -, -, rfl⟩ := hb
  case' reti => obtain ⟨-, -, _, -, -, rfl⟩ := hb
  case' wake => obtain ⟨-, -, rfl⟩ := hb
  case' dtLookup => obtain ⟨-, -, _, _, -, -, rfl⟩ := hb
  case' customFinish =>
    obtain ⟨-, -, hb⟩ := hb
    obtain ⟨rfl, -⟩ := State.customEnd_ok hb
  case' replyWrite =>
    obtain ⟨-, -, hb⟩ := hb
    obtain ⟨rfl, -⟩ := State.writeReply_ok hb
  case' rfReturn => obtain ⟨-, -, _, -, rfl⟩ := hb
  case' sleep | enableInt | calibrate | endMain | convDisable | resultRead | ovClear | convDone | convOvfEnd |
      convOvf | convIrqEntry | rfFrame | rfIrqEntry => obtain ⟨-, rfl⟩ := hb
  all_goals
    refine ⟨fun p hp => ?_, fun hp => ?_⟩
    · cases p <;> simp [Part.same, State.readByte, State.replyWritten, State.completeThermistor, writes] at hp ⊢
    · simp [State.completeThermistor, writes] at hp ⊢

/-- `exec_next` for every operation, RESET too: its body completes, or one mark is set. -/
theorem exec_cases (hx : exec i s = .next t) :
    opBody i s = .ok t ∨ (∃ r, t = s.raiseFault r) ∨ ∃ r, t = s.refuse r := by
  by_cases hi : i = .reset
  · subst hi
    obtain rfl : s.afterReset = t := by simpa [exec_reset] using hx
    exact .inl rfl
  · obtain ⟨-, hb | ⟨r, -, ht⟩ | ⟨r, -, ht⟩⟩ := exec_next hi hx
    · exact .inl hb
    · exact .inr (.inl ⟨r, ht⟩)
    · exact .inr (.inr ⟨r, ht⟩)

/-- An operation that leads to a next state writes the parts of `writes`, or a mark (60_exceptions R214). -/
theorem frame_exec (hx : exec i s = .next t) : FrameExcept (.marks :: writes i) s t := by
  obtain hb | ⟨r, rfl⟩ | ⟨r, rfl⟩ := exec_cases hx
  · exact (frame_opBody hb).mono (by simp)
  · exact (frame_raiseFault s r).mono (by simp)
  · exact (frame_refuse s r).mono (by simp)

/-- ISR_COMPLETE completes where its arm does, and then marks the frame served (41_sampling_sequencer R133). -/
theorem opBody_isrComplete_ok {d : Word} (hb : opBody (.isrComplete d) s = .ok t) :
    ∃ u, s.completeArm d = .ok u ∧ t = u.markServed := by
  obtain ⟨-, -, hb⟩ := handlerGate_ok.mp hb
  exact (State.serveComplete_ok.mp hb).2

/-! The writes to CONV. -/

/-- One write to CONV by an operation other than CONV_DONE (40_converter_control R102 to R105, R108, R109). -/
inductive ConverterWrite (g : Config) : Converter → Converter → Prop
  /-- configure_and_start, with `clr` the policy's choice (R102). -/
  | start (c : Converter) (ch : Channel) (clr : Bool) :
    ConverterWrite g c
      { c with
        ch := ch, gain := g.cfgGain, fdly := g.cfgFdly, clk := g.cfgClk, bias := true, ie := true, ovie := true,
        ifg := c.ifg && !clr, ovifg := c.ovifg && !clr, en := true, sc := true }
  /-- "disable converter" (R103). -/
  | disable (c : Converter) : ConverterWrite g c { c with en := false, sc := false }
  /-- The side effect of reading the result (R104). -/
  | clearIfg (c : Converter) : ConverterWrite g c { c with ifg := false }
  /-- "clear overflow flag only" (R105). -/
  | clearOvifg (c : Converter) : ConverterWrite g c { c with ovifg := false }
  /-- The flag of an overflow, raised by an enabled converter (R108, R109). -/
  | overflow (c : Converter) : c.en = true → ConverterWrite g c { c with ovifg := true }
  /-- The end of the conversion in flight (R108). -/
  | endFlight (c : Converter) : ConverterWrite g c { c with sc := false }

/-- A sequence of writes to CONV. -/
inductive ConverterWrites (g : Config) (c : Converter) : Converter → Prop
  | refl : ConverterWrites g c c
  | tail {b c' : Converter} : ConverterWrites g c b → ConverterWrite g b c' → ConverterWrites g c c'

theorem ConverterWrites.single {g : Config} {c c' : Converter} (h : ConverterWrite g c c') : ConverterWrites g c c' :=
  .tail .refl h

/-- What CONV_DONE leaves in CONV (40_converter_control R107). -/
def Converter.completed (c : Converter) (v : Word) : Converter := { c with result := v, ifg := true, sc := false }

theorem State.startConversion_writes (s : State) (ch : Channel) :
    ConverterWrites s.cfg s.conv (s.startConversion ch).conv := .single (.start _ _ _)

theorem State.requestBy_writes (s : State) (o : RequestOrder) : ConverterWrites s.cfg s.conv (s.requestBy o).conv := by
  cases o with
  | stateFirst => exact .refl
  | atomic | startFirst => exact s.startConversion_writes _

theorem State.finishRequest_writes (h : s.finishRequest = .ok t) : ConverterWrites s.cfg s.conv t.conv := by
  obtain ⟨-, -, rfl⟩ | ⟨-, rfl⟩ := State.finishRequest_ok.mp h
  · exact s.startConversion_writes _
  · exact .refl

theorem State.completeArm_writes {d : Word} (h : s.completeArm d = .ok t) : ConverterWrites s.cfg s.conv t.conv := by
  have hr : ConverterWrites s.cfg s.conv { s.conv with ifg := false } := .single (.clearIfg _)
  obtain ⟨-, h⟩ | ⟨-, h⟩ | ⟨-, rfl⟩ := State.completeArm_ok.mp h
  · obtain ⟨-, rfl⟩ := State.completeIdle_ok.mp h
    exact hr
  · obtain ⟨-, rfl⟩ := State.completeReference_ok.mp h
    exact hr.tail (.start _ _ _)
  · exact hr.tail (.disable _)

/-- What a body that completes does to CONV: CONV_DONE its own write, with the converter enabled, and every other
operation but RESET a sequence of the other writes. -/
theorem opBody_conv (hi : i ≠ .reset) (hb : opBody i s = .ok t) :
    (∃ v, i = .convDone v ∧ s.conv.en = true ∧ t.conv = s.conv.completed v) ∨ ConverterWrites s.cfg s.conv t.conv := by
  have hf := (frame_opBody hb).parts
  cases i
  case convDone v =>
    obtain ⟨hg, hb⟩ := gate_ok.mp hb
    cases hb
    exact .inl ⟨v, rfl, (Bool.and_eq_true_iff.mp hg).1, rfl⟩
  all_goals refine .inr ?_
  case reqCycle =>
    obtain ⟨-, -, rfl⟩ := State.request_ok.mp (gate_ok.mp hb).2
    exact s.requestBy_writes _
  case reqFinish => exact State.finishRequest_writes (gate_ok.mp hb).2
  case cfgStart ch =>
    obtain ⟨-, rfl⟩ := State.configureAndStart_ok.mp (gate_ok.mp hb).2
    exact s.startConversion_writes ch
  case convDisable =>
    cases (gate_ok.mp hb).2
    exact .single (.disable _)
  case resultRead =>
    cases (gate_ok.mp hb).2
    exact .single (.clearIfg _)
  case ovClear =>
    cases (gate_ok.mp hb).2
    exact .single (.clearOvifg _)
  case convOvfEnd =>
    obtain ⟨hg, hb⟩ := gate_ok.mp hb
    cases hb
    exact .tail (.single (.overflow _ (Bool.and_eq_true_iff.mp hg).1)) (.endFlight _)
  case convOvf =>
    obtain ⟨hg, hb⟩ := gate_ok.mp hb
    cases hb
    exact .single (.overflow _ (Bool.and_eq_true_iff.mp hg).1)
  case isrComplete d =>
    obtain ⟨u, hu, rfl⟩ := opBody_isrComplete_ok hb
    rw [State.markServed_conv]
    exact State.completeArm_writes hu
  case isrOverflow =>
    obtain ⟨-, -, hb⟩ := handlerGate_ok.mp hb
    obtain ⟨-, rfl⟩ := State.serveOverflow_ok.mp hb
    exact .single (.clearOvifg _)
  case customStart =>
    obtain ⟨-, -, hb⟩ := handlerGate_ok.mp hb
    obtain ⟨-, rfl⟩ := State.customBegin_ok.mp hb
    exact s.startConversion_writes _
  case customFinish d =>
    obtain ⟨-, -, hb⟩ := handlerGate_ok.mp hb
    obtain ⟨rfl, -⟩ := State.customEnd_ok hb
    exact .single (.clearIfg _)
  case reset => exact absurd rfl hi
  all_goals
    rw [show t.conv = s.conv from hf .conv (by simp [writes])]
    exact .refl

/-- Every write to CONV but CONV_DONE's keeps a set enable or bias bit, and the result (10_state R33 to R35, R38). -/
theorem ConverterWrites.keeps {g : Config} {c c' : Converter} (h : ConverterWrites g c c') :
    (c.ie = true → c'.ie = true) ∧ (c.ovie = true → c'.ovie = true) ∧ (c.bias = true → c'.bias = true) ∧
      c'.result = c.result := by
  induction h with
  | refl => exact ⟨id, id, id, rfl⟩
  | tail _ hw ih =>
    obtain ⟨hie, hovie, hbias, hresult⟩ := ih
    cases hw with
    | start => exact ⟨fun _ => rfl, fun _ => rfl, fun _ => rfl, hresult⟩
    | _ => exact ⟨hie, hovie, hbias, hresult⟩

/-! The writes to `buf`. -/

/-- ISR_COMPLETE writes one slot in each Awaiting state and none in Idle (41_sampling_sequencer R134 to R136). -/
theorem State.completeArm_buf {d : Word} (h : s.completeArm d = .ok t) :
    t.buf = s.buf ∨ (s.st = .awaitingReference ∧ t.buf = { s.buf with slot0 := some (s.resultValue d) }) ∨
      (s.st = .awaitingThermistor ∧ t.buf = { s.buf with slot1 := some (s.resultValue d) }) := by
  obtain ⟨-, h⟩ | ⟨hs, h⟩ | ⟨hs, rfl⟩ := State.completeArm_ok.mp h
  · obtain ⟨-, rfl⟩ := State.completeIdle_ok.mp h
    exact .inl rfl
  · obtain ⟨-, rfl⟩ := State.completeReference_ok.mp h
    exact .inr (.inl ⟨hs, rfl⟩)
  · exact .inr (.inr ⟨hs, rfl⟩)

/-- What an operation other than RESET does to `buf` (10_state R24). -/
theorem exec_buf (hi : i ≠ .reset) (hx : exec i s = .next t) :
    t.buf = s.buf ∨ ∃ d, i = .isrComplete d ∧
      ((s.st = .awaitingReference ∧ t.buf = { s.buf with slot0 := some (s.resultValue d) }) ∨
        (s.st = .awaitingThermistor ∧ t.buf = { s.buf with slot1 := some (s.resultValue d) })) := by
  by_cases hw : .buf ∈ Part.marks :: writes i
  · obtain ⟨d, rfl⟩ : ∃ d, i = .isrComplete d := by cases i <;> simp_all [writes]
    obtain hb | ⟨r, rfl⟩ | ⟨r, rfl⟩ := exec_cases hx
    · obtain ⟨u, hu, rfl⟩ := opBody_isrComplete_ok hb
      exact (State.completeArm_buf hu).imp_right fun h => ⟨d, rfl, h⟩
    · exact .inl rfl
    · exact .inl rfl
  · exact .inl ((frame_exec hx).parts .buf hw)

end Sys2Proof.Machine
end

section
/-! SUPPORT. The invariant in four parts, one per group of components, each with what keeps it. -/

namespace Sys2Proof.Machine

/-- The part of `Inv` on the handlers: `cpu`, `frame` and `rf`. -/
structure HandlerInv (k : Cpu) (fr : Option Saved) (r : RfSide) : Prop where
  frameCtx : fr = none ↔ k.ctx = .main
  masked : k.ctx ≠ .main → k.gie = false ∧ k.lpm = false
  savedGie : ∀ f, fr = some f → f.gie = true
  causeCtx : ∀ f, fr = some f → (f.cause = .rf ↔ k.ctx = .rfISR)
  phaseCtx : r.phase = .idle ↔ k.ctx ≠ .rfISR
  lookupPending : r.phase = .lookup → r.pending ≠ none
  laterNotPending : r.phase ≠ .idle → r.phase ≠ .lookup → r.pending = none

/-- The part of `Inv` on the converter, under a configuration. -/
structure ConverterInv (g : Config) (c : Converter) : Prop where
  flightEnabled : c.sc = true → c.en = true
  startedEnables : c.en = true → c.bias = true ∧ c.ie = true ∧ c.ovie = true
  flagEnables : c.ifg = true ∨ c.ovifg = true → c.ie = true ∧ c.ovie = true
  fieldsFit : g.fits = true → c.gain < 2 ^ g.wGain ∧ c.fdly < 2 ^ g.wFdly ∧ c.clk < 2 ^ g.wClk

/-- The part of `Inv` on the sequencer and the main flow. -/
structure SequencerInv (st : SampleState) (m : MainFlow) : Prop where
  legalSt : st ≠ .reserved
  halfIdle : m.half = .statePending → st = .idle
  doneWhole : m.done = true → m.half = .none

theorem inv_iff {s : State} :
    Inv s ↔ HandlerInv s.cpu s.frame s.rf ∧ ConverterInv s.cfg s.conv ∧ SequencerInv s.st s.main ∧ MemoryInv s := by
  constructor
  · intro h
    exact ⟨⟨h.frameCtx, h.masked, h.savedGie, h.causeCtx, h.phaseCtx, h.lookupPending, h.laterNotPending⟩,
      ⟨h.flightEnabled, h.startedEnables, h.flagEnables, h.fieldsFit⟩, ⟨h.legalSt, h.halfIdle, h.doneWhole⟩, h.memory⟩
  · rintro ⟨hh, hc, hs, hm⟩
    exact { hh, hc, hs with memory := hm }

variable {s t : State} {i : Instr}

theorem MemoryInv.of_eq (h : MemoryInv s) (hm : t.mem = s.mem) (hc : t.cfg = s.cfg) : MemoryInv t :=
  ⟨by rw [hm, hc]; exact h.canonical, by rw [hm, hc]; exact h.replyOnly⟩

/-- The invariant does not speak of `buf`, the marks, the schedule and the outputs. -/
theorem Inv.of_frame (h : Inv s) (hf : FrameExcept [.buf, .marks, .sched, .outputs] s t) : Inv t := by
  have same : ∀ p, p ∉ [Part.buf, .marks, .sched, .outputs] → Part.same s t p := hf.parts
  obtain ⟨hh, hc, hs, hm⟩ := inv_iff.mp h
  have ecfg : t.cfg = s.cfg := same .cfg (by simp)
  refine inv_iff.mpr ⟨?_, ?_, ?_, hm.of_eq (hf.mem (by simp)) ecfg⟩
  · rwa [show t.cpu = s.cpu from same .cpu (by simp), show t.frame = s.frame from same .frame (by simp),
      show t.rf = s.rf from same .rf (by simp)]
  · rwa [ecfg, show t.conv = s.conv from same .conv (by simp)]
  · rwa [show t.st = s.st from same .st (by simp), show t.main = s.main from same .main (by simp)]

/-! The converter's part. -/

theorem ConverterInv.write {g : Config} {c c' : Converter} (h : ConverterInv g c) (hw : ConverterWrite g c c') :
    ConverterInv g c' := by
  obtain ⟨hflight, hstarted, hflags, hfit⟩ := h
  cases hw with
  | start ch clr =>
    refine ⟨fun _ => rfl, fun _ => ⟨rfl, rfl, rfl⟩, fun _ => ⟨rfl, rfl⟩, fun hg => ?_⟩
    simp only [Config.fits, Bool.and_eq_true, decide_eq_true_eq] at hg
    obtain ⟨⟨⟨⟨⟨-, hgain⟩, hfdly⟩, hclk⟩, -⟩, -⟩ := hg
    exact ⟨hgain, hfdly, hclk⟩
  | disable => exact ⟨nofun, nofun, hflags, hfit⟩
  | clearIfg => exact ⟨hflight, hstarted, fun h => hflags (.inr (h.resolve_left nofun)), hfit⟩
  | clearOvifg => exact ⟨hflight, hstarted, fun h => hflags (.inl (h.resolve_right nofun)), hfit⟩
  | overflow he => exact ⟨hflight, hstarted, fun _ => (hstarted he).2, hfit⟩
  | endFlight => exact ⟨nofun, hstarted, hflags, hfit⟩

theorem ConverterInv.of_writes {g : Config} {c c' : Converter} (h : ConverterInv g c) (hw : ConverterWrites g c c') :
    ConverterInv g c' := by
  induction hw with
  | refl => exact h
  | tail _ hw ih => exact ih.write hw

theorem ConverterInv.completed {g : Config} {c : Converter} (h : ConverterInv g c) (he : c.en = true) (v : Word) :
    ConverterInv g (c.completed v) :=
  ⟨nofun, h.startedEnables, fun _ => (h.startedEnables he).2, h.fieldsFit⟩

theorem opBody_converterInv (h : ConverterInv s.cfg s.conv) (hi : i ≠ .reset) (hb : opBody i s = .ok t) :
    ConverterInv t.cfg t.conv := by
  have hcfg : t.cfg = s.cfg := (frame_opBody hb).parts .cfg (by simp)
  rw [hcfg]
  obtain ⟨v, -, he, hc⟩ | hw := opBody_conv hi hb
  · rw [hc]
    exact h.completed he v
  · exact h.of_writes hw

/-! The sequencer's part. -/

theorem State.mainSteps_iff :
    s.mainSteps = true ↔ s.cpu.ctx = .main ∧ s.cpu.lpm = false ∧ s.main.half = .none ∧ s.main.done = false := by
  simp [State.mainSteps, State.mainAwake, and_assoc]

theorem sequencerInv_request (hs : s.mainSteps = true) (hb : s.request = .ok t) :
    SequencerInv t.st t.main := by
  obtain ⟨hidle, -, rfl⟩ := State.request_ok.mp hb
  obtain ⟨-, -, hhalf, hdone⟩ := State.mainSteps_iff.mp hs
  cases s.requestOrder <;> constructor <;> simp [State.requestBy, hidle, hhalf, hdone]

theorem SequencerInv.finishRequest (h : SequencerInv s.st s.main) (hb : s.finishRequest = .ok t) :
    SequencerInv t.st t.main := by
  obtain ⟨-, -, rfl⟩ | ⟨-, rfl⟩ := State.finishRequest_ok.mp hb
  · exact ⟨h.legalSt, nofun, fun _ => rfl⟩
  · exact ⟨nofun, nofun, fun _ => rfl⟩

theorem SequencerInv.completeArm {d : Word} (h : SequencerInv s.st s.main) (hb : s.completeArm d = .ok t) :
    SequencerInv t.st t.main := by
  obtain ⟨-, hb⟩ | ⟨hst, hb⟩ | ⟨-, rfl⟩ := State.completeArm_ok.mp hb
  · obtain ⟨-, rfl⟩ := State.completeIdle_ok.mp hb
    exact h
  · obtain ⟨-, rfl⟩ := State.completeReference_ok.mp hb
    exact ⟨nofun, fun hh => absurd (hst.symm.trans (h.halfIdle hh)) nofun, h.doneWhole⟩
  · exact ⟨nofun, fun _ => rfl, h.doneWhole⟩

theorem opBody_sequencerInv (h : SequencerInv s.st s.main) (hi : i ≠ .reset) (hb : opBody i s = .ok t) :
    SequencerInv t.st t.main := by
  have hf := (frame_opBody hb).parts
  cases i
  case reqCycle =>
    obtain ⟨hg, hb⟩ := gate_ok.mp hb
    exact sequencerInv_request hg hb
  case reqFinish => exact h.finishRequest (gate_ok.mp hb).2
  case endMain =>
    obtain ⟨hg, hb⟩ := gate_ok.mp hb
    cases hb
    obtain ⟨-, -, hhalf, -⟩ := State.mainSteps_iff.mp hg
    exact ⟨h.legalSt, h.halfIdle, fun _ => hhalf⟩
  case isrComplete d =>
    obtain ⟨u, hu, rfl⟩ := opBody_isrComplete_ok hb
    rw [State.markServed_st, State.markServed_main]
    exact h.completeArm hu
  case reset => exact absurd rfl hi
  all_goals
    rwa [show t.st = s.st from hf .st (by simp [writes]), show t.main = s.main from hf .main (by simp [writes])]

/-! The handlers' part. -/

section
variable {k : Cpu} {fr : Option Saved} {r : RfSide}

/-- While the main flow executes, its two bits are free. -/
theorem HandlerInv.mainBits (h : HandlerInv k fr r) (hk : k.ctx = .main) (g l : Bool) :
    HandlerInv { k with gie := g, lpm := l } fr r :=
  { h with masked := fun hx => absurd hk hx }

/-- A frame may be written in its other bits (41_sampling_sequencer R133, R138). -/
theorem HandlerInv.mapFrame (h : HandlerInv k fr r) {m : Saved → Saved} (hg : ∀ f, (m f).gie = f.gie)
    (hc : ∀ f, (m f).cause = f.cause) : HandlerInv k (fr.map m) r := by
  refine { h with frameCtx := Option.map_eq_none_iff.trans h.frameCtx, savedGie := ?_, causeCtx := ?_ }
  · intro f hf
    obtain ⟨f', hf', rfl⟩ := Option.map_eq_some_iff.mp hf
    rw [hg, h.savedGie f' hf']
  · intro f hf
    obtain ⟨f', hf', rfl⟩ := Option.map_eq_some_iff.mp hf
    rw [hc, h.causeCtx f' hf']

/-- Taking the converter interrupt (60_exceptions R212). -/
theorem HandlerInv.convEntry (h : HandlerInv k fr r) (hx : k.ctx = .main) {l : Bool} {c : Cause} (hc : c ≠ .rf) :
    HandlerInv ⟨false, false, .convISR⟩ (some ⟨l, true, c, false⟩) r where
  frameCtx := by simp
  masked := fun _ => ⟨rfl, rfl⟩
  savedGie := by simp
  causeCtx := by simp [hc]
  phaseCtx := by simp [h.phaseCtx, hx]
  lookupPending := h.lookupPending
  laterNotPending := h.laterNotPending

/-- Taking the RF interrupt (42_dispatch R162). -/
theorem HandlerInv.rfEntry (l : Bool) {p : Option Word} (hp : p ≠ none) :
    HandlerInv ⟨false, false, .rfISR⟩ (some ⟨l, true, .rf, false⟩) ⟨p, .lookup⟩ where
  frameCtx := by simp
  masked := fun _ => ⟨rfl, rfl⟩
  savedGie := by simp
  causeCtx := by simp
  phaseCtx := by simp
  lookupPending := fun _ => hp
  laterNotPending := fun _ hl => absurd rfl hl

/-- Returning to the main flow with the RF side idle (60_exceptions R213, 42_dispatch R168). -/
theorem HandlerInv.returned (g l : Bool) (p : Option Word) : HandlerInv ⟨g, l, .main⟩ none ⟨p, .idle⟩ where
  frameCtx := by simp
  masked := fun hx => absurd rfl hx
  savedGie := nofun
  causeCtx := nofun
  phaseCtx := by simp
  lookupPending := nofun
  laterNotPending := fun hp => absurd rfl hp

/-- The RF handler leaves Lookup: nothing is pending any more (42_dispatch R163). -/
theorem HandlerInv.later (h : HandlerInv k fr r) (hx : k.ctx = .rfISR) {p : Phase} (hi : p ≠ .idle) (hl : p ≠ .lookup) :
    HandlerInv k fr ⟨none, p⟩ :=
  { h with
    phaseCtx := by simp [hi, hx]
    lookupPending := fun h => absurd h hl
    laterNotPending := fun _ _ => rfl }

/-- The RF handler moves on from a phase after Lookup (42_dispatch R164, R165, R167). -/
theorem HandlerInv.nextPhase (h : HandlerInv k fr r) (hx : k.ctx = .rfISR) (hri : r.phase ≠ .idle)
    (hrl : r.phase ≠ .lookup) {p : Phase} (hi : p ≠ .idle) (hl : p ≠ .lookup) :
    HandlerInv k fr { r with phase := p } := by
  rw [h.laterNotPending hri hrl]
  exact h.later hx hi hl

end

theorem State.entryOpen_iff :
    s.entryOpen = true ↔ s.cpu.ctx = .main ∧ s.cpu.gie = true ∧ s.frame = none := by
  simp [State.entryOpen, and_assoc]

/-- The completion arms leave `cpu` and `rf`, and write at most the frame's saved low-power bit. -/
theorem HandlerInv.completeArm {d : Word} (h : HandlerInv s.cpu s.frame s.rf) (hb : s.completeArm d = .ok t) :
    HandlerInv t.cpu t.frame t.rf := by
  obtain ⟨-, hb⟩ | ⟨-, hb⟩ | ⟨-, rfl⟩ := State.completeArm_ok.mp hb
  · obtain ⟨-, rfl⟩ := State.completeIdle_ok.mp hb
    exact h
  · obtain ⟨-, rfl⟩ := State.completeReference_ok.mp hb
    exact h
  · exact h.mapFrame (fun _ => rfl) (fun _ => rfl)

theorem opBody_handlerInv (h : HandlerInv s.cpu s.frame s.rf) (hi : i ≠ .reset) (hb : opBody i s = .ok t) :
    HandlerInv t.cpu t.frame t.rf := by
  have hf := (frame_opBody hb).parts
  cases i
  case sleep | enableInt =>
    obtain ⟨hg, hb⟩ := gate_ok.mp hb
    cases hb
    obtain ⟨hx, -, -, -⟩ := State.mainSteps_iff.mp hg
    exact h.mainBits hx _ _
  case convIrqEntry c =>
    obtain ⟨hg, hb⟩ := gate_ok.mp hb
    cases hb
    obtain ⟨ho, hc⟩ := Bool.and_eq_true_iff.mp hg
    obtain ⟨hx, hgie, -⟩ := State.entryOpen_iff.mp ho
    rw [State.takeInterrupt_frame, hgie]
    exact h.convEntry hx (by rintro rfl; cases hc)
  case rfIrqEntry =>
    obtain ⟨hg, hb⟩ := gate_ok.mp hb
    cases hb
    obtain ⟨ho, hp⟩ := Bool.and_eq_true_iff.mp hg
    obtain ⟨-, hgie, -⟩ := State.entryOpen_iff.mp ho
    simp only [State.takeInterrupt_frame, hgie]
    exact HandlerInv.rfEntry _ (Option.isSome_iff_ne_none.mp hp)
  case isrComplete d =>
    obtain ⟨u, hu, rfl⟩ := opBody_isrComplete_ok hb
    exact (h.completeArm hu).mapFrame (fun _ => rfl) (fun _ => rfl)
  case isrOverflow =>
    obtain ⟨-, -, hb⟩ := handlerGate_ok.mp hb
    obtain ⟨-, rfl⟩ := State.serveOverflow_ok.mp hb
    exact h.mapFrame (fun _ => rfl) (fun _ => rfl)
  case wake =>
    obtain ⟨-, -, hb⟩ := handlerGate_ok.mp hb
    cases hb
    exact h.mapFrame (fun _ => rfl) (fun _ => rfl)
  case reti =>
    obtain ⟨hx, -, hb⟩ := handlerGate_ok.mp hb
    obtain ⟨f, -, -, rfl⟩ := State.returnServed_ok.mp hb
    have hidle : s.rf.phase = .idle := h.phaseCtx.mpr (by simp [hx])
    have := HandlerInv.returned f.gie f.lpm s.rf.pending
    rwa [← hidle] at this
  case rfReturn w =>
    obtain ⟨-, -, hb⟩ := handlerGate_ok.mp hb
    obtain ⟨f, -, rfl⟩ := State.rfReturnBody_ok.mp hb
    exact HandlerInv.returned _ _ _
  case rfFrame id =>
    obtain ⟨hg, hb⟩ := gate_ok.mp hb
    cases hb
    have hidle : s.rf.phase = .idle := of_decide_eq_true (Bool.and_eq_true_iff.mp hg).2
    exact { h with lookupPending := fun _ => nofun, laterNotPending := fun hn => absurd hidle hn }
  case dtLookup =>
    obtain ⟨hx, -, hb⟩ := handlerGate_ok.mp hb
    obtain ⟨_, r, -, -, rfl⟩ := State.lookupPending_ok.mp hb
    exact h.later hx (by cases r <;> nofun) (by cases r <;> nofun)
  case dtInvoke =>
    obtain ⟨hx, -, hb⟩ := handlerGate_ok.mp hb
    obtain ⟨hp, rfl⟩ := State.invokeHandler_ok.mp hb
    exact h.nextPhase hx (by simp [hp]) (by simp [hp]) nofun nofun
  case customStart =>
    obtain ⟨hx, hg, hb⟩ := handlerGate_ok.mp hb
    obtain ⟨-, rfl⟩ := State.customBegin_ok.mp hb
    have hp : s.rf.phase = .start := of_decide_eq_true hg
    exact h.nextPhase hx (by simp [hp]) (by simp [hp]) nofun nofun
  case customFinish d =>
    obtain ⟨hx, hg, hb⟩ := handlerGate_ok.mp hb
    obtain ⟨rfl, -⟩ := State.customEnd_ok hb
    have hp : s.rf.phase = .wait := of_decide_eq_true (Bool.and_eq_true_iff.mp hg).1
    exact h.nextPhase hx (by simp [hp]) (by simp [hp]) nofun nofun
  case reset => exact absurd rfl hi
  all_goals
    rwa [show t.cpu = s.cpu from hf .cpu (by simp [writes]), show t.frame = s.frame from hf .frame (by simp [writes]),
      show t.rf = s.rf from hf .rf (by simp [writes])]

/-! Data memory's part. -/

theorem State.mem_writeByte {a : Nat} {b : Byte} {x : Host.Cell} (h : x ∈ (s.writeByte a b).mem) :
    x.1 = a ∨ x ∈ s.mem := by
  rw [State.writeByte_mem] at h
  split at h
  · exact .inr (Memory.mem_drop h)
  · exact (Memory.mem_put h).imp_left fun h => by rw [h]

theorem State.mem_writeWord {a : Nat} {v : Word} {x : Host.Cell} (h : x ∈ (s.writeWord a v).mem) :
    x.1 = a ∨ x.1 = a + 1 ∨ x ∈ s.mem := by
  rcases State.mem_writeByte h with h | h
  · exact .inr (.inl h)
  · exact (State.mem_writeByte h).imp_right .inr

/-- Writing the reply lists bytes of the reply region alone (20_memory R57). -/
theorem State.mem_replyWritten {v : Word} {x : Host.Cell} (h : x ∈ (s.replyWritten v).mem) :
    s.cfg.inReply x.1 = true ∨ x ∈ s.mem := by
  rw [Config.inReply_iff]
  rcases State.mem_writeWord h with hx | hx | hx
  · exact .inl (by omega)
  · exact .inl (by omega)
  · rcases State.mem_writeWord hx with hx | hx | hx
    · exact .inl (by omega)
    · exact .inl (by omega)
    · exact .inr hx

theorem MemoryInv.replyWritten (h : MemoryInv s) (hw : s.cfg.replyBase.toNat + 4 ≤ 65536) (v : Word) :
    MemoryInv (s.replyWritten v) :=
  ⟨State.replyWritten_wf h.canonical hw v, fun x hx => (State.mem_replyWritten hx).elim id (h.replyOnly x)⟩

theorem opBody_memoryInv (h : MemoryInv s) (hi : i ≠ .reset) (hb : opBody i s = .ok t) : MemoryInv t := by
  have hf := frame_opBody hb
  cases i
  case replyWrite v =>
    obtain ⟨-, -, hb⟩ := handlerGate_ok.mp hb
    obtain ⟨rfl, hw⟩ := State.writeReply_ok hb
    exact h.replyWritten hw v
  case customFinish d =>
    obtain ⟨-, -, hb⟩ := handlerGate_ok.mp hb
    obtain ⟨rfl, hw⟩ := State.customEnd_ok hb
    have hc : MemoryInv s.clearIfg := h.of_eq rfl rfl
    exact (hc.replyWritten hw (s.resultValue d)).of_eq rfl rfl
  case reset => exact absurd rfl hi
  all_goals exact h.of_eq (hf.mem (by simp [writes])) (hf.parts .cfg (by simp))

/-! The whole invariant. -/

/-- The invariant holds after a reset, under every configuration and for every draw (70_reset_and_hazards R240). -/
theorem inv_atReset (c : Config) (n : Nat) : Inv (State.atReset c n) := by
  refine inv_iff.mpr ⟨HandlerInv.returned _ _ _, ⟨nofun, nofun, nofun, fun _ => ?_⟩, ⟨nofun, nofun, nofun⟩, ⟨rfl, nofun⟩⟩
  exact ⟨Nat.mod_lt _ (Nat.two_pow_pos _), Nat.mod_lt _ (Nat.two_pow_pos _), Nat.mod_lt _ (Nat.two_pow_pos _)⟩

theorem Inv.raiseFault (h : Inv s) (r : FaultReason) : Inv (s.raiseFault r) :=
  h.of_frame ((frame_raiseFault s r).mono (by simp))

theorem Inv.refuse (h : Inv s) (r : RefusalReason) : Inv (s.refuse r) :=
  h.of_frame ((frame_refuse s r).mono (by simp))

theorem Inv.withSched (h : Inv s) (l : List EventWord) : Inv { s with sched := l } :=
  h.of_frame ((frame_schedOutputs s l s.outputs).mono (by simp))

theorem Inv.afterReset (h : Inv s) : Inv s.afterReset := by
  cases hr : s.cfg.refusal with
  | some r =>
    rw [State.afterReset_refused hr]
    exact h.refuse r
  | none =>
    rw [State.afterReset_runs hr]
    exact (inv_atReset s.cfg s.draws).of_frame ((frame_schedOutputs _ _ _).mono (by simp))

theorem Inv.of_opBody (h : Inv s) (hb : opBody i s = .ok t) : Inv t := by
  by_cases hi : i = .reset
  · subst hi
    cases hb
    exact h.afterReset
  · obtain ⟨hh, hc, hs, hm⟩ := inv_iff.mp h
    exact inv_iff.mpr ⟨opBody_handlerInv hh hi hb, opBody_converterInv hc hi hb, opBody_sequencerInv hs hi hb,
      opBody_memoryInv hm hi hb⟩

/-- Every operation keeps the invariant. -/
theorem Inv.of_exec (h : Inv s) (hx : exec i s = .next t) : Inv t := by
  obtain hb | ⟨r, rfl⟩ | ⟨r, rfl⟩ := exec_cases hx
  · exact h.of_opBody hb
  · exact h.raiseFault r
  · exact h.refuse r

theorem Inv.of_step (h : Inv s) (hx : step s = .next t) : Inv t := by
  obtain ⟨w, rest, -, ⟨i, -, hx⟩ | ⟨-, -, rfl⟩⟩ := step_next hx
  · exact (h.withSched rest).of_exec hx
  · exact (h.withSched rest).refuse _

end Sys2Proof.Machine
end

section
/-! PROOFS. The state's obligations: the invariant of every step, and who writes which component (10_state). -/

namespace Sys2Proof.Proofs

open Sys2Proof Sys2Proof.Machine

/-- Settles O8: each of the invariant's four parts is kept by every body, and marks and the schedule are not in it. -/
theorem stepKeepsInv : Obligations.StepKeepsInv := fun _ _ h hx => h.of_step hx

/-- Settles O10, from the parts each operation writes. -/
theorem onlyCycleOperationsWriteSt : Obligations.OnlyCycleOperationsWriteSt := by
  intro i s t hx hne
  have hw : .st ∈ Part.marks :: writes i := Decidable.byContradiction fun hw => hne ((frame_exec hx).parts .st hw)
  cases i <;> simp [writes] at hw ⊢

/-- Settles O14, from the parts each operation writes. -/
theorem configurationIsNeverWritten : Obligations.ConfigurationIsNeverWritten := by
  intro i s t hx
  exact ⟨(frame_exec hx).parts .cfg (by simp), (frame_exec hx).parts .sched (by simp)⟩

/-- Settles O32: READ_SAMPLE's body is a fault on an unwritten slot, and completes on a written one. -/
theorem readSampleOutputsSlot : Obligations.ReadSampleOutputsSlot := by
  intro i s hs
  obtain ⟨hm, hg⟩ := mainReady_iff.mp hs
  have hi : Instr.readSample i ≠ .reset := nofun
  have hbody : opBody (.readSample i) s = s.readSlot i := by rw [opBody, hg, gate_true]
  constructor
  · intro hv
    have hb : s.readSlot i = .error (.fault .unwrittenSample) := by simp [State.readSlot, hv]
    exact (exec_of_fault hi hm (hbody.trans hb)).trans (congrArg _ (State.raiseFault_eq hm _))
  · intro v hv
    have hb := hbody.trans (State.readSlot_ok.mpr ⟨v, hv, rfl⟩)
    exact ⟨_, exec_of_ok hi hm hb, rfl, (frame_opBody hb).parts⟩

/-- Every operation of agent Main but REQ_FINISH waits for the main flow (10_state R43). -/
theorem opBody_mainFlow {i : Instr} (ha : i.agent = .main) (hf : i ≠ .reqFinish) (s : State) :
    ∃ b, opBody i s = gate s.mainSteps b := by
  cases i with
  | reqCycle | sleep | enableInt | calibrate | readSample | endMain => exact ⟨_, rfl⟩
  | reqFinish => exact absurd rfl hf
  | _ => cases ha

/-- Settles O34: the main flow's gate is shut between the halves of a request and after END. -/
theorem splitRequestBlocksMainFlow : Obligations.SplitRequestBlocksMainFlow := by
  intro i s ha hf hblock
  obtain ⟨b, hb⟩ := opBody_mainFlow ha hf s
  refine noStep_of_gate (by rintro rfl; cases ha) hb fun h => ?_
  obtain ⟨-, -, -, hhalf, hdone⟩ := mainReady_iff.mpr h
  exact hblock.elim (· hhalf) fun hd => by simp [hd] at hdone

/-- Settles O57, from what an operation does to `buf`. -/
theorem bufferSlotsWrittenByArms : Obligations.BufferSlotsWrittenByArms := by
  intro i s t hx hi
  obtain hb | ⟨d, rfl, ⟨hst, hb⟩ | ⟨hst, hb⟩⟩ := exec_buf hi hx
  · simp [hb]
  · simp [hb, hst]
  · simp [hb, hst]

/-- Settles O58, from the writes to CONV. -/
theorem enablesStayAndResultIsTheConverters : Obligations.EnablesStayAndResultIsTheConverters := by
  intro i s t hx hi
  obtain hb | ⟨r, rfl⟩ | ⟨r, rfl⟩ := exec_cases hx
  · obtain ⟨v, rfl, -, hc⟩ | hw := opBody_conv hi hb
    · simp [hc, Converter.completed]
    · obtain ⟨hie, hovie, hbias, hresult⟩ := hw.keeps
      exact ⟨hie, hovie, hbias, fun hne => absurd hresult hne⟩
  · exact ⟨id, id, id, fun hne => absurd rfl hne⟩
  · exact ⟨id, id, id, fun hne => absurd rfl hne⟩

end Sys2Proof.Proofs
end

section
/-! PROOFS. The shared memory's obligation: what the Converter's steps and a frame's delivery may write (20_memory R62). -/

namespace Sys2Proof.Proofs

open Sys2Proof Sys2Proof.Machine

/-- An operation whose gated body always completes sets no mark: its one step is the body's. -/
theorem exec_next_of_gate_ok {i : Instr} (hi : i ≠ .reset) {s u t : State} {e : Bool} (hb : opBody i s = gate e (.ok u))
    (hx : exec i s = .next t) : opBody i s = .ok t ∧ t = u := by
  obtain ⟨-, hok | ⟨r, herr, -⟩ | ⟨r, herr, -⟩⟩ := exec_next hi hx
  · obtain ⟨-, hu⟩ := gate_ok.mp (hb.symm.trans hok)
    exact ⟨hok, (Except.ok.inj hu).symm⟩
  · cases e <;> simp [hb] at herr
  · cases e <;> simp [hb] at herr

theorem writes_converter {i : Instr} (ha : i.agent = .converter) : writes i = [.conv] := by
  cases i with
  | convDone | convOvfEnd | convOvf => rfl
  | _ => cases ha

/-- The Converter's bodies write the two flags, SC and RESULT (40_converter_control R107 to R109). -/
theorem opBody_converter {i : Instr} (ha : i.agent = .converter) (s : State) :
    ∃ e ifg ovifg sc v,
      opBody i s =
        gate e (.ok { s with conv := { s.conv with ifg := ifg, ovifg := ovifg, sc := sc, result := v } }) := by
  cases i with
  | convDone v => exact ⟨_, true, s.conv.ovifg, false, v, rfl⟩
  | convOvfEnd => exact ⟨_, s.conv.ifg, true, false, s.conv.result, rfl⟩
  | convOvf => exact ⟨_, s.conv.ifg, true, s.conv.sc, s.conv.result, rfl⟩
  | _ => cases ha

/-- Settles O54: these bodies raise no fault and refuse nothing, so no mark is written, and the frame of a body that
completes leaves every part but the one it names. -/
theorem converterAndFrameStepsAreConfined : Obligations.ConverterAndFrameStepsAreConfined := by
  constructor
  · intro i s t ha hx
    obtain ⟨e, ifg, ovifg, sc, v, hbody⟩ := opBody_converter ha s
    obtain ⟨hok, rfl⟩ := exec_next_of_gate_ok (by rintro rfl; cases ha) hbody hx
    exact ⟨rfl, writes_converter ha ▸ (frame_opBody hok).parts⟩
  · intro id s t hx
    obtain ⟨hok, rfl⟩ := exec_next_of_gate_ok (i := .rfFrame id) nofun rfl hx
    exact ⟨rfl, (frame_opBody hok).parts⟩

end Sys2Proof.Proofs
end

section
/-! SUPPORT. The decoder and the encoder are inverse: what each decoder of operands answers, and from that what a word
names (30_encoding R71 to R77). -/

namespace Sys2Proof

variable {i j : Instr} {sel : BitVec 8} {data : Word}

/-! What each decoder of operands accepts. -/

theorem ite_error_ok {p : Prop} [Decidable p] {r : Except DecodeError Instr} {e : DecodeError} :
    (if p then r else .error e) = .ok i ↔ p ∧ r = .ok i := by
  by_cases h : p <;> simp [h]

theorem decodeBare_ok : decodeBare j sel data = .ok i ↔ i = j ∧ sel = 0 ∧ data = 0 := by
  rw [decodeBare, ite_error_ok, Except.ok.injEq, and_comm, eq_comm]

theorem decodeData_ok {f : Word → Instr} : decodeData f sel data = .ok i ↔ i = f data ∧ sel = 0 := by
  rw [decodeData, ite_error_ok, Except.ok.injEq, and_comm, eq_comm]

/-- A channel's code is two bits wide (30_encoding R75). -/
theorem decodeChannel_ok {f : Channel → Instr} :
    decodeChannel f sel data = .ok i ↔ ∃ ch, i = f ch ∧ sel = ch.code ∧ data = 0 := by
  unfold decodeChannel
  rw [ite_error_ok]
  constructor
  · rintro ⟨hd, h⟩
    split at h <;> cases h
    · exact ⟨.adc0, rfl, rfl, hd⟩
    · exact ⟨.internalTemperature, rfl, rfl, hd⟩
    · exact ⟨.thermistorAdc2, rfl, rfl, hd⟩
    · exact ⟨.referenceAdc1, rfl, rfl, hd⟩
  · rintro ⟨ch, rfl, rfl, rfl⟩
    cases ch <;> exact ⟨rfl, rfl⟩

theorem decodeSlot_ok {f : Slot → Instr} :
    decodeSlot f sel data = .ok i ↔ ∃ k, i = f k ∧ sel = k.code ∧ data = 0 := by
  unfold decodeSlot
  rw [ite_error_ok]
  constructor
  · rintro ⟨hd, h⟩
    split at h <;> cases h
    · exact ⟨.slot0, rfl, rfl, hd⟩
    · exact ⟨.slot1, rfl, rfl, hd⟩
  · rintro ⟨k, rfl, rfl, rfl⟩
    cases k <;> exact ⟨rfl, rfl⟩

/-- Codes 0 and 3 name no cause (30_encoding R77). -/
theorem decodeCause_ok {f : Cause → Instr} :
    decodeCause f sel data = .ok i ↔ ∃ c, i = f c ∧ c.isConverter = true ∧ sel = c.code ∧ data = 0 := by
  unfold decodeCause
  rw [ite_error_ok]
  constructor
  · rintro ⟨hd, h⟩
    split at h <;> cases h
    · exact ⟨.overflow, rfl, rfl, rfl, hd⟩
    · exact ⟨.complete, rfl, rfl, rfl, hd⟩
  · rintro ⟨c, rfl, hc, rfl, rfl⟩
    cases c with
    | overflow | complete => exact ⟨rfl, rfl⟩
    | rf => cases hc

theorem decodeWake_ok {f : Bool → Instr} :
    decodeWake f sel data = .ok i ↔ ∃ w, i = f w ∧ sel = wakeCode w ∧ data = 0 := by
  unfold decodeWake
  rw [ite_error_ok]
  constructor
  · rintro ⟨hd, h⟩
    split at h <;> cases h
    · exact ⟨false, rfl, rfl, hd⟩
    · exact ⟨true, rfl, rfl, hd⟩
  · rintro ⟨w, rfl, rfl, rfl⟩
    cases w <;> exact ⟨rfl, rfl⟩

/-! What a word names. -/

theorem decodeFields_of_wellFormed (hw : i.wellFormed = true) : decodeFields i.op i.sel i.data = .ok i := by
  cases i with
  | readSample k => exact decodeSlot_ok.mpr ⟨k, rfl, rfl, rfl⟩
  | cfgStart ch => exact decodeChannel_ok.mpr ⟨ch, rfl, rfl, rfl⟩
  | convIrqEntry c => exact decodeCause_ok.mpr ⟨c, rfl, hw, rfl, rfl⟩
  | rfReturn w => exact decodeWake_ok.mpr ⟨w, rfl, rfl, rfl⟩
  | _ => rfl

/-- One case per row of the operation map: the row's decoder accepts the row's operation alone, with its operand in its
field and 0 where it has none (30_encoding R71 to R74). -/
theorem fields_of_decodeFields {op : BitVec 8} (h : decodeFields op sel data = .ok i) :
    i.wellFormed = true ∧ i.op = op ∧ i.sel = sel ∧ i.data = data := by
  revert h
  unfold decodeFields
  split <;>
    simp +contextual [decodeBare_ok, decodeData_ok, decodeChannel_ok, decodeSlot_ok, decodeCause_ok, decodeWake_ok,
      Instr.wellFormed, Instr.op, Instr.sel, Instr.data, -Bool.exists_bool]

theorem decode_encode (hw : i.wellFormed = true) : decode (encode i) = .ok i := by
  rw [decode, opField_encode, selField_encode, dataField_encode]
  exact decodeFields_of_wellFormed hw

theorem encode_of_decode {w : EventWord} (h : decode w = .ok i) : i.wellFormed = true ∧ encode i = w := by
  obtain ⟨hw, hop, hsel, hdata⟩ := fields_of_decodeFields h
  exact ⟨hw, by rw [encode, hop, hsel, hdata, eventWord_fields]⟩

/-- The decoder rejects the word of no well-formed operation (30_encoding R82). -/
theorem decode_error_of_unnamed {w : EventWord} (h : ∀ i : Instr, i.wellFormed = true → encode i ≠ w) :
    ∃ e, decode w = .error e := by
  cases hd : decode w with
  | error e => exact ⟨e, rfl⟩
  | ok i =>
    obtain ⟨hw, he⟩ := encode_of_decode hd
    exact absurd he (h i hw)

/-- The op codes in use (30_encoding R72). -/
def operationMap : List (BitVec 8) :=
  [0x01, 0x02, 0x03, 0x04, 0x05, 0x06, 0x0F, 0x10, 0x11, 0x12, 0x13, 0x20, 0x21, 0x22, 0x30, 0x31, 0x32, 0x33, 0x34,
    0x40, 0x41, 0x42, 0x43, 0x44, 0x45, 0x46, 0x47, 0xFF]

theorem op_mem_operationMap (i : Instr) : i.op ∈ operationMap := by cases i <;> simp [Instr.op, operationMap]

end Sys2Proof
end

section
/-! SUPPORT. The step on a word that decodes and on one that does not (30_encoding R87), and which operations wait for
the main context or belong to a handler's (30_encoding R83). -/

namespace Sys2Proof.Machine

variable {s : State} {w : EventWord} {rest : List EventWord}

theorem step_of_decode {i : Instr} (hs : s.sched = w :: rest) (hd : decode w = .ok i) :
    step s = exec i { s with sched := rest } := by
  simp [step, State.fetch, hs, hd]

theorem step_of_badWord {e : DecodeError} (hs : s.sched = w :: rest) (hd : decode w = .error e)
    (hm : s.marked = false) : step s = .next (({ s with sched := rest } : State).refuse .badOperation) := by
  have hm' : ({ s with sched := rest } : State).marked = false := hm
  simp [step, State.fetch, hs, hd, State.badWord, State.whenEnabled_eq, hm', State.commit]

/-- A word placed by its number is the word itself. -/
theorem State.withFetchWord_toNat (s : State) (w : EventWord) : s.withFetchWord 32 w.toNat = s.placeWord w := by
  rw [State.withFetchWord, BitVec.toNat_mod_cancel, BitVec.ofNat_toNat, BitVec.setWidth_eq]

theorem step_placeWord {i : Instr} (hd : decode w = .ok i) : step (s.placeWord w) = exec i s := step_of_decode rfl hd

/-- Every operation of a handler's body is behind that handler's context (30_encoding R83). -/
theorem opBody_handler {i : Instr} {x : Ctx} (h : handlerCtx i = some x) (s : State) :
    ∃ e b, opBody i s = handlerGate s x e b := by
  cases i <;> cases h <;> exact ⟨_, _, rfl⟩

theorem handlerGate_wrongContext {x : Ctx} (h : s.cpu.ctx ≠ x) (e : Bool) (b : Except Stop State) :
    handlerGate s x e b = .error (.refuse .wrongContext) := if_pos h

/-- An interrupt entry waits for the main context and for gie (60_exceptions R212, R215). -/
theorem noStep_of_entryClosed {i : Instr} (hi : i ≠ .reset) {c : Bool} {b : Except Stop State}
    (hb : opBody i s = gate (s.entryOpen && c) b) (h : s.cpu.ctx ≠ .main ∨ s.cpu.gie = false) : NoStep (exec i s) := by
  refine noStep_of_gate hi hb fun ⟨_, hg⟩ => ?_
  obtain ⟨ho, -⟩ := Bool.and_eq_true_iff.mp hg
  obtain ⟨hx, hgie, -⟩ := State.entryOpen_iff.mp ho
  exact h.elim (· hx) fun h => by simp [hgie] at h

end Sys2Proof.Machine
end

section
/-! PROOFS. The encoding's obligations: the decoder and the encoder, the step on a word, and which words a context
admits (30_encoding). -/

namespace Sys2Proof.Proofs

open Sys2Proof Sys2Proof.Machine

/-- Settles O2: each row's decoder gives back the operation whose operand stands in its field. -/
theorem decodeOfEncode : Obligations.DecodeOfEncode := fun _ hw => decode_encode hw

/-- Settles O3, from what each row's decoder accepts. -/
theorem encodeOfDecode : Obligations.EncodeOfDecode := fun _ _ h => encode_of_decode h

/-- Settles O4: every op code is in the map, and the decoder rejects a word that is no well-formed operation's. -/
theorem unnamedWordsAreRefused : Obligations.UnnamedWordsAreRefused := by
  constructor
  · rintro w hop i - rfl
    exact hop ((opField_encode i).symm ▸ op_mem_operationMap i)
  · intro s w rest hs hu hw
    obtain ⟨e, hd⟩ := decode_error_of_unnamed hw
    have hm := unmarked_iff.mp hu
    exact (step_of_badWord hs hd hm).trans (congrArg _ (State.refuse_eq (s := { s with sched := rest }) hm _))

/-- Every operation of agent Main waits for the main flow to execute and to be awake (10_state R40, R41). -/
theorem noStep_of_mainAway {i : Instr} (ha : i.agent = .main) {s : State} (h : s.cpu.ctx ≠ .main ∨ s.cpu.lpm = true) :
    NoStep (exec i s) := by
  have hready : ¬ (s.cpu.ctx = .main ∧ s.cpu.lpm = false) := fun ⟨hctx, hlpm⟩ =>
    h.elim (· hctx) fun h => by simp [hlpm] at h
  by_cases hf : i = .reqFinish
  · subst hf
    refine noStep_of_gate (i := .reqFinish) nofun rfl fun hg => ?_
    obtain ⟨⟨-, hctx, hlpm⟩, -⟩ := finishReady_iff.mpr hg
    exact hready ⟨hctx, hlpm⟩
  · obtain ⟨b, hb⟩ := opBody_mainFlow ha hf s
    refine noStep_of_gate (by rintro rfl; cases ha) hb fun hg => ?_
    obtain ⟨-, hctx, hlpm, -, -⟩ := mainReady_iff.mpr hg
    exact hready ⟨hctx, hlpm⟩

/-- Settles O33, from the gates: the main flow's and the entries' are shut, and a handler's refuses. -/
theorem contextLegality : Obligations.ContextLegality := by
  refine ⟨fun i s ha hx => noStep_of_mainAway ha hx, fun s hx => ⟨fun c => ?_, ?_⟩, fun i s x hi hu hx => ?_⟩
  · exact noStep_of_entryClosed (i := .convIrqEntry c) nofun rfl hx
  · exact noStep_of_entryClosed (i := .rfIrqEntry) nofun rfl hx
  · obtain ⟨e, b, hb⟩ := opBody_handler hi s
    have hm := unmarked_iff.mp hu
    have hrefuse := hb.trans (handlerGate_wrongContext hx e b)
    exact (exec_of_refuse (by rintro rfl; cases hi) hm hrefuse).trans (congrArg _ (State.refuse_eq hm _))

/-- Settles O1: seven of the words are their operations' encodings, and the last has a reserved cause code. -/
theorem sampleWordsDecode : Obligations.SampleWordsDecode :=
  ⟨decode_encode (i := .reqCycle) rfl, decode_encode (i := .cfgStart .referenceAdc1) rfl,
    decode_encode (i := .convDone 0x1234) rfl, decode_encode (i := .convIrqEntry .complete) rfl,
    decode_encode (i := .readSample .slot1) rfl, decode_encode (i := .rfFrame 0x00C0) rfl,
    decode_encode (i := .rfReturn true) rfl, rfl⟩

/-- Settles O5: a placed word is the schedule's head, and an operation's word decodes to it. -/
theorem stepRunsDecodedWord : Obligations.StepRunsDecodedWord := by
  refine ⟨fun s w rest i hs hd => step_of_decode hs hd, fun s i hw => ?_⟩
  rw [State.withFetchWord_toNat]
  exact step_placeWord (decode_encode hw)

end Sys2Proof.Proofs
end

section
/-! SUPPORT. What an operation behind its enabling condition answers: a software operation of the converter, or a step
of agent Converter (40_converter_control R102 to R110); the word of an operation with a `data` operand (30_encoding R74);
and which operations end a conversion in flight (10_state R49). -/

namespace Sys2Proof

/-- The `data` operand is the low half of the word (30_encoding R70, R74). -/
theorem eventWord_eq_or (op sel : BitVec 8) (data : Word) :
    eventWord op sel data = eventWord op sel 0 ||| data.setWidth 32 := by
  apply BitVec.eq_of_getLsbD_eq
  intro k hk
  rw [BitVec.getLsbD_or, getLsbD_eventWord, getLsbD_eventWord, BitVec.getLsbD_setWidth]
  by_cases hlow : k < 16
  · simp [hlow, hk]
  · simp [hlow, hk, BitVec.getLsbD_of_ge data k (by omega)]

end Sys2Proof

namespace Sys2Proof.Machine

variable {s t u : State} {i : Instr} {e : Bool} {b : Except Stop State} {ch : Channel}

/-! The gates. -/

theorem gate_refuse {r : RefusalReason} : gate e b = .error (.refuse r) ↔ e = true ∧ b = .error (.refuse r) := by
  cases e <;> simp

/-- Behind an open gate a body that completes is the step, and writes its own parts alone. -/
theorem exec_of_gate_ok (hi : i ≠ .reset) (hb : opBody i s = gate e b) (hm : s.marked = false) (he : e = true)
    (hu : b = .ok u) : exec i s = .next u ∧ UnchangedExcept (writes i) s u := by
  have hok : opBody i s = .ok u := hb.trans (gate_ok.mpr ⟨he, hu⟩)
  exact ⟨exec_of_ok hi hm hok, (frame_opBody hok).parts⟩

/-- A software operation has no step where no software context runs (log 10). -/
theorem noStep_of_noSoftware (hi : i ≠ .reset) (hb : opBody i s = gate s.softwareRuns b) (h : ¬ SoftwareReady s) :
    NoStep (exec i s) :=
  noStep_of_gate hi hb fun hg => h (softwareReady_iff.mpr hg)

/-- A software operation whose body completes steps in any running software context (40_converter_control R102 to
R105). -/
theorem exec_of_softwareReady (hi : i ≠ .reset) (hb : opBody i s = gate s.softwareRuns b) (h : SoftwareReady s)
    (hu : b = .ok u) : exec i s = .next u ∧ UnchangedExcept (writes i) s u := by
  obtain ⟨hm, hg⟩ := softwareReady_iff.mp h
  exact exec_of_gate_ok hi hb hm hg hu

/-! configure_and_start. -/

/-- The one way configure_and_start fails (40_converter_control R102). -/
theorem State.configureAndStart_error {x : Stop} :
    s.configureAndStart ch = .error x ↔ s.conv.sc = true ∧ x = .fault .converterBusy := by
  cases h : s.conv.sc <;> simp [State.configureAndStart, h, eq_comm]

/-- A CFG_START that leaves no fault mark has made the writes of configure_and_start. -/
theorem exec_cfgStart_noFault (hx : exec (.cfgStart ch) s = .next t) (hf : t.marks.fault = none) :
    t = s.startConversion ch := by
  obtain ⟨-, hok | ⟨r, -, rfl⟩ | ⟨r, hrefuse, -⟩⟩ := exec_next (i := .cfgStart ch) nofun hx
  · exact (State.configureAndStart_ok.mp (gate_ok.mp hok).2).2
  · simp at hf
  · cases (State.configureAndStart_error.mp (gate_refuse.mp hrefuse).2).2

/-! The Converter's steps. -/

theorem converter_cases (ha : i.agent = .converter) :
    (∃ v, i = .convDone v) ∨ i = .convOvfEnd ∨ i = .convOvf := by
  cases i with
  | convDone v => exact .inl ⟨v, rfl⟩
  | convOvfEnd => exact .inr (.inl rfl)
  | convOvf => exact .inr (.inr rfl)
  | _ => cases ha

/-- A step of agent Converter waits for EN and for a second condition, SC or OVF_SPURIOUS (40_converter_control R107 to
R109). -/
theorem noStep_of_enabledShut {c : Bool} (hi : i ≠ .reset) (hb : opBody i s = gate (s.conv.en && c) b)
    (h : ¬ (Unmarked s ∧ s.conv.en = true ∧ c = true)) : NoStep (exec i s) :=
  noStep_of_gate hi hb fun ⟨hm, hg⟩ => h ⟨unmarked_iff.mpr hm, Bool.and_eq_true_iff.mp hg⟩

/-- Under both conditions a step of agent Converter is its body, which always completes. -/
theorem exec_of_converterEnabled {c : Bool} (hi : i ≠ .reset) (hb : opBody i s = gate (s.conv.en && c) (.ok u))
    (hm : Unmarked s) (he : s.conv.en = true) (hc : c = true) :
    exec i s = .next u ∧ UnchangedExcept (writes i) s u :=
  exec_of_gate_ok hi hb (unmarked_iff.mp hm) (Bool.and_eq_true_iff.mpr ⟨he, hc⟩) rfl

/-- A disabled converter is silent: each of its operations waits for EN (40_converter_control R110). -/
theorem noStep_of_converterDisabled (ha : i.agent = .converter) (he : s.conv.en = false) : NoStep (exec i s) := by
  have shut (c : Bool) : ¬ (Unmarked s ∧ s.conv.en = true ∧ c = true) := by simp [he]
  obtain ⟨v, rfl⟩ | rfl | rfl := converter_cases ha
  · exact noStep_of_enabledShut (i := .convDone v) nofun rfl (shut _)
  · exact noStep_of_enabledShut (i := .convOvfEnd) nofun rfl (shut _)
  · exact noStep_of_enabledShut (i := .convOvf) nofun rfl (shut _)

/-! The end of a conversion in flight. -/

/-- The operations that end a conversion in flight: its completion, its overflow, a disable, the AwaitingThermistor arm,
RESET. -/
def EndsFlight (i : Instr) (s : State) : Prop :=
  (∃ v, i = .convDone v) ∨ i = .convOvfEnd ∨ i = .convDisable ∨
    (∃ d, i = .isrComplete d ∧ s.st = .awaitingThermistor) ∨ i = .reset

theorem State.requestBy_keepsFlight (o : RequestOrder) (hs : s.conv.sc = true) : (s.requestBy o).conv.sc = true := by
  cases o with
  | stateFirst => exact hs
  | atomic | startFirst => rfl

theorem State.finishRequest_keepsFlight (h : s.finishRequest = .ok t) (hs : s.conv.sc = true) : t.conv.sc = true := by
  obtain ⟨-, -, rfl⟩ | ⟨-, rfl⟩ := State.finishRequest_ok.mp h
  · rfl
  · exact hs

/-- Of the completion arms AwaitingThermistor's alone aborts a conversion in flight (41_sampling_sequencer R134 to
R136). -/
theorem State.completeArm_keepsFlight {d : Word} (h : s.completeArm d = .ok t) (hs : s.conv.sc = true) :
    s.st = .awaitingThermistor ∨ t.conv.sc = true := by
  obtain ⟨-, h⟩ | ⟨-, h⟩ | ⟨hst, -⟩ := State.completeArm_ok.mp h
  · obtain ⟨-, rfl⟩ := State.completeIdle_ok.mp h
    exact .inr hs
  · obtain ⟨-, rfl⟩ := State.completeReference_ok.mp h
    exact .inr rfl
  · exact .inl hst

/-- A body that completes ends a conversion in flight or keeps SC set. -/
theorem opBody_keepsFlight (hb : opBody i s = .ok t) (hs : s.conv.sc = true) : EndsFlight i s ∨ t.conv.sc = true := by
  have hf := (frame_opBody hb).parts
  cases i
  case convDone v => exact .inl (.inl ⟨v, rfl⟩)
  case convOvfEnd => exact .inl (.inr (.inl rfl))
  case convDisable => exact .inl (.inr (.inr (.inl rfl)))
  case reset => exact .inl (.inr (.inr (.inr (.inr rfl))))
  case isrComplete d =>
    obtain ⟨u, hu, rfl⟩ := opBody_isrComplete_ok hb
    exact (State.completeArm_keepsFlight hu hs).imp_left fun hst => .inr (.inr (.inr (.inl ⟨d, rfl, hst⟩)))
  all_goals refine .inr ?_
  case reqCycle =>
    obtain ⟨-, -, rfl⟩ := State.request_ok.mp (gate_ok.mp hb).2
    exact State.requestBy_keepsFlight _ hs
  case reqFinish => exact State.finishRequest_keepsFlight (gate_ok.mp hb).2 hs
  case cfgStart =>
    obtain ⟨-, rfl⟩ := State.configureAndStart_ok.mp (gate_ok.mp hb).2
    rfl
  case resultRead | ovClear | convOvf =>
    cases (gate_ok.mp hb).2
    exact hs
  case isrOverflow =>
    obtain ⟨-, -, hb⟩ := handlerGate_ok.mp hb
    obtain ⟨-, rfl⟩ := State.serveOverflow_ok.mp hb
    exact hs
  case customStart =>
    obtain ⟨-, -, hb⟩ := handlerGate_ok.mp hb
    obtain ⟨-, rfl⟩ := State.customBegin_ok.mp hb
    rfl
  case customFinish =>
    obtain ⟨-, -, hb⟩ := handlerGate_ok.mp hb
    obtain ⟨rfl, -⟩ := State.customEnd_ok hb
    exact hs
  all_goals
    rw [show t.conv = s.conv from hf .conv (by simp [writes])]
    exact hs

/-- A step that clears SC ends the conversion in flight: a mark clears nothing (60_exceptions R214). -/
theorem endsFlight_of_exec (hx : exec i s = .next t) (hs : s.conv.sc = true) (ht : t.conv.sc = false) :
    EndsFlight i s := by
  obtain hb | ⟨r, rfl⟩ | ⟨r, rfl⟩ := exec_cases hx
  · exact (opBody_keepsFlight hb hs).resolve_right (by simp [ht])
  · simp [hs] at ht
  · simp [hs] at ht

/-- A conversion in flight at `n` and over `d` points later is in flight up to a last step. -/
theorem exists_lastFlight {σ : Nat → State} {n d : Nat} (hn : (σ n).conv.sc = true)
    (hd : (σ (n + d)).conv.sc = false) :
    ∃ m, n ≤ m ∧ (∀ k, n ≤ k → k ≤ m → (σ k).conv.sc = true) ∧ (σ (m + 1)).conv.sc = false := by
  induction d generalizing n with
  | zero =>
    rw [Nat.add_zero, hn] at hd
    cases hd
  | succ d ih =>
    cases hnext : (σ (n + 1)).conv.sc with
    | false =>
      refine ⟨n, Nat.le_refl n, fun k hnk hkn => ?_, hnext⟩
      rwa [Nat.le_antisymm hkn hnk]
    | true =>
      rw [Nat.add_comm d 1, ← Nat.add_assoc] at hd
      obtain ⟨m, hnm, hflight, hend⟩ := ih hnext hd
      refine ⟨m, Nat.le_of_succ_le hnm, fun k hnk hkm => ?_, hend⟩
      obtain rfl | hlt := Nat.eq_or_lt_of_le hnk
      · exact hn
      · exact hflight k hlt hkm

end Sys2Proof.Machine
end

section
/-! PROOFS. The converter's obligations: the software operations on it, the Converter agent's steps, and how a
conversion in flight ends (40_converter_control). -/

namespace Sys2Proof.Proofs

open Sys2Proof Sys2Proof.Machine

/-- Settles O15: with SC clear configure_and_start completes, and CFG_START writes CONV alone. -/
theorem cfgStartStartsConversion : Obligations.CfgStartStartsConversion := by
  intro ch s
  refine ⟨noStep_of_noSoftware (i := .cfgStart ch) nofun rfl, fun hs hsc => ?_⟩
  have hok : s.configureAndStart ch = .ok (s.startConversion ch) := State.configureAndStart_ok.mpr ⟨hsc, rfl⟩
  obtain ⟨hx, hf⟩ := exec_of_softwareReady (i := .cfgStart ch) nofun rfl hs hok
  exact ⟨_, hx, s.startConversion_started ch, hf⟩

/-- Settles O16: what is left without a fault mark is `State.startConversion`. -/
theorem cfgStartWithoutFaultConfigures : Obligations.CfgStartWithoutFaultConfigures := by
  intro ch s t hx hf
  obtain rfl := exec_cfgStart_noFault hx hf
  exact ⟨rfl, rfl, rfl, rfl, rfl, rfl, rfl⟩

/-- Settles O17: with SC set configure_and_start faults. -/
theorem cfgStartWhileBusyFaults : Obligations.CfgStartWhileBusyFaults := by
  intro ch s hs hsc
  obtain ⟨hm, hg⟩ := softwareReady_iff.mp hs
  have hb : opBody (.cfgStart ch) s = .error (.fault .converterBusy) := by
    rw [opBody, hg, gate_true]
    exact State.configureAndStart_error.mpr ⟨hsc, rfl⟩
  exact (exec_of_fault (i := .cfgStart ch) nofun hm hb).trans (congrArg _ (State.raiseFault_eq hm _))

/-- Settles O18: `State.disableConverter` clears EN, for which every step of the Converter waits. -/
theorem convDisableAborts : Obligations.ConvDisableAborts := by
  intro s
  refine ⟨noStep_of_noSoftware (i := .convDisable) nofun rfl, fun hs => ?_⟩
  obtain ⟨hx, hf⟩ := exec_of_softwareReady (i := .convDisable) nofun rfl hs rfl
  exact ⟨_, hx, rfl, hf, fun i ha => noStep_of_converterDisabled ha rfl⟩

/-- Settles O19: the body is `State.clearIfg` for every `d`. -/
theorem resultReadClearsIfg : Obligations.ResultReadClearsIfg := by
  intro d s
  refine ⟨noStep_of_noSoftware (i := .resultRead d) nofun rfl, fun hs => ?_⟩
  obtain ⟨hx, hf⟩ := exec_of_softwareReady (i := .resultRead d) nofun rfl hs rfl
  exact ⟨_, hx, rfl, hf⟩

/-- Settles O20: the body is `State.clearOverflow`. -/
theorem ovClearClearsOvifg : Obligations.OvClearClearsOvifg := by
  intro s
  refine ⟨noStep_of_noSoftware (i := .ovClear) nofun rfl, fun hs => ?_⟩
  obtain ⟨hx, hf⟩ := exec_of_softwareReady (i := .ovClear) nofun rfl hs rfl
  exact ⟨_, hx, rfl, hf⟩

/-- Settles O21: the value is the word's `data` field, and the step waits for EN and SC. -/
theorem convDoneLatchesResult : Obligations.ConvDoneLatchesResult := by
  intro v
  refine ⟨eventWord_eq_or 0x20 0 v, fun s h => noStep_of_enabledShut (i := .convDone v) nofun rfl h,
    fun s hm hen hsc => ?_⟩
  obtain ⟨hx, hf⟩ := exec_of_converterEnabled (i := .convDone v) nofun rfl hm hen hsc
  exact ⟨_, hx, rfl, hf⟩

/-- Settles O22: the step waits for EN and SC, and its body writes OVIFG and SC. -/
theorem convOvfEndDropsSample : Obligations.ConvOvfEndDropsSample := by
  refine ⟨rfl, fun s h => noStep_of_enabledShut (i := .convOvfEnd) nofun rfl h, fun s hm hen hsc => ?_⟩
  obtain ⟨hx, hf⟩ := exec_of_converterEnabled (i := .convOvfEnd) nofun rfl hm hen hsc
  exact ⟨_, hx, rfl, hf⟩

/-- Settles O23: the step waits for EN and OVF_SPURIOUS, and its body writes OVIFG. -/
theorem convOvfFlagsOverflow : Obligations.ConvOvfFlagsOverflow := by
  refine ⟨rfl, fun s h => noStep_of_enabledShut (i := .convOvf) nofun rfl h, fun s hm hen hov => ?_⟩
  obtain ⟨hx, hf⟩ := exec_of_converterEnabled (i := .convOvf) nofun rfl hm hen hov
  exact ⟨_, hx, rfl, hf⟩

/-- Settles O24: each of the agent's three operations is behind EN. -/
theorem disabledConverterIsSilent : Obligations.DisabledConverterIsSilent :=
  fun _ ha => ⟨converter_cases ha, fun _ he => noStep_of_converterDisabled ha he⟩

/-- Settles O60: fairness gives a later point with SC clear; the step before the first such point clears SC, and a step
that does is one of the five. -/
theorem fairConversionEnds : Obligations.FairConversionEnds := by
  intro σ ev hrun hfair n hen hsc
  obtain ⟨p, hnp, hp⟩ := hfair.conversion n hen hsc
  obtain ⟨d, rfl⟩ := Nat.exists_eq_add_of_le hnp
  obtain ⟨m, hnm, hflight, hend⟩ := exists_lastFlight hsc hp
  exact ⟨m, hnm, hflight, hend, endsFlight_of_exec (hrun m) (hflight m hnm (Nat.le_refl m)) hend⟩

end Sys2Proof.Proofs
end

section
/-! SUPPORT. Where a gated operation is its body, and the mark it sets where the body fails; the failures of a request,
of its second half and of the completion arms; and the cycle of `st` (41_sampling_sequencer R131 to R137, R144). -/

namespace Sys2Proof.Machine

variable {s t u : State} {i : Instr} {e : Bool} {b : Except Stop State} {x : Stop} {d : Word} {c : Cause}

/-! Frames and gates. -/

/-- A frame speaks of fewer parts where the other parts are seen to be the same. -/
theorem UnchangedExcept.narrow {ps qs : List Part} (h : UnchangedExcept qs s t)
    (hq : ∀ p ∈ qs, p ∉ ps → Part.same s t p) : UnchangedExcept ps s t := fun p hp =>
  if hpq : p ∈ qs then hq p hpq hp else h p hpq

/-- Behind an open gate a body that faults sets the fault mark alone (60_exceptions R214). -/
theorem faulted_of_gate {r : FaultReason} (hi : i ≠ .reset) (hb : opBody i s = gate e b) (hm : s.marked = false)
    (he : e = true) (hr : b = .error (.fault r)) : Faulted s r (exec i s) := by
  have herr : opBody i s = .error (.fault r) := by rw [hb, he, gate_true, hr]
  exact (exec_of_fault hi hm herr).trans (congrArg _ (State.raiseFault_eq hm r))

/-- Behind an open gate a body that refuses sets the refusal mark alone (60_exceptions R214). -/
theorem refused_of_gate {r : RefusalReason} (hi : i ≠ .reset) (hb : opBody i s = gate e b) (hm : s.marked = false)
    (he : e = true) (hr : b = .error (.refuse r)) : Refused s r (exec i s) := by
  have herr : opBody i s = .error (.refuse r) := by rw [hb, he, gate_true, hr]
  exact (exec_of_refuse hi hm herr).trans (congrArg _ (State.refuse_eq hm r))

/-- In its own context a handler's operation only waits for its condition (30_encoding R83). -/
theorem handlerGate_of_ctx {y : Ctx} (h : s.cpu.ctx = y) (e : Bool) (b : Except Stop State) :
    handlerGate s y e b = gate e b := if_neg (not_not_intro h)

/-- A main-flow operation has no step where the main flow may not take one (10_state R40, R41, R43). -/
theorem noStep_of_notMainReady (hi : i ≠ .reset) (hb : opBody i s = gate s.mainSteps b) (h : ¬ MainReady s) :
    NoStep (exec i s) :=
  noStep_of_gate hi hb fun hg => h (mainReady_iff.mpr hg)

/-- Where the main flow may step, a main-flow operation whose body completes is that body. -/
theorem exec_of_mainReady (hi : i ≠ .reset) (hb : opBody i s = gate s.mainSteps b) (h : MainReady s) (hu : b = .ok u) :
    exec i s = .next u ∧ UnchangedExcept (writes i) s u := by
  obtain ⟨hm, hg⟩ := mainReady_iff.mp h
  exact exec_of_gate_ok hi hb hm hg hu

theorem faulted_of_mainReady {r : FaultReason} (hi : i ≠ .reset) (hb : opBody i s = gate s.mainSteps b)
    (h : MainReady s) (hr : b = .error (.fault r)) : Faulted s r (exec i s) := by
  obtain ⟨hm, hg⟩ := mainReady_iff.mp h
  exact faulted_of_gate hi hb hm hg hr

/-! The request and its second half. -/

/-- SecondCycle is checked first (60_exceptions R211). -/
theorem State.request_error :
    s.request = .error x ↔
      (s.st ≠ .idle ∧ x = .fault .secondCycle) ∨
        (s.st = .idle ∧ (s.conv.sc && startsAtOnce s.requestOrder) = true ∧ x = .fault .converterBusy) := by
  by_cases h : s.st = .idle <;> cases h' : (s.conv.sc && startsAtOnce s.requestOrder) <;>
    simp [State.request, h, h', eq_comm]

theorem startsAtOnce_iff {o : RequestOrder} : startsAtOnce o = true ↔ o ≠ .stateFirst := by
  cases o <;> simp [startsAtOnce]

theorem State.requestOrder_always {o : RequestOrder} (h : s.cfg.reqCycleOrder = .always o) : s.requestOrder = o := by
  simp [State.requestOrder, h]

theorem State.finishRequest_error :
    s.finishRequest = .error x ↔
      (s.main.half = .none ∧ x = .halt .notEnabled) ∨
        (s.main.half = .startPending ∧ s.conv.sc = true ∧ x = .fault .converterBusy) := by
  cases h : s.main.half <;> cases h' : s.conv.sc <;>
    simp [State.finishRequest, State.configureAndStart, h, h', eq_comm]

/-- With no half pending REQ_FINISH has no step (41_sampling_sequencer R142). -/
theorem noStep_reqFinish (h : s.main.half = .none) : NoStep (exec .reqFinish s) :=
  noStep_of_gate (i := .reqFinish) nofun rfl fun hg => (finishReady_iff.mpr hg).2 h

/-! The handler's arms. -/

theorem State.serving_iff : s.serving c = true ↔ ∃ f, s.frame = some f ∧ f.cause = c ∧ f.served = false := by
  cases h : s.frame <;> simp [State.serving, h]

/-- The handler serves another cause, or has served this one. -/
theorem State.not_serving (h : ∀ f, s.frame = some f → f.cause ≠ c ∨ f.served = true) : s.serving c = false := by
  rw [← Bool.not_eq_true, State.serving_iff]
  rintro ⟨f, hf, hc, hv⟩
  exact (h f hf).elim (· hc) fun hv' => by simp [hv] at hv'

theorem State.markServed_frame_some {f : Saved} (h : s.frame = some f) :
    s.markServed.frame = some { f with served := true } := by simp [h]

theorem State.completeReference_error :
    s.completeReference d = .error x ↔ s.conv.sc = true ∧ x = .fault .converterBusy := by
  cases h : s.conv.sc <;> simp [State.completeReference, State.configureAndStart, h, eq_comm]

/-- ISR_COMPLETE in its handler, serving Complete, is its arm, and then the frame is served
(41_sampling_sequencer R133). -/
theorem exec_isrComplete_of_arm (h : HandlerReady s .convISR) (hs : s.serving .complete = true)
    (hu : s.completeArm d = .ok u) :
    exec (.isrComplete d) s = .next u.markServed ∧ UnchangedExcept [.buf, .conv, .st, .frame] s u.markServed := by
  have hb : s.serveComplete d = .ok u.markServed := State.serveComplete_ok.mpr ⟨hs, u, hu, rfl⟩
  obtain ⟨hx, hf⟩ :=
    exec_of_gate_ok (i := .isrComplete d) nofun (handlerGate_of_ctx h.ctx _ _) (unmarked_iff.mp h.unmarked) rfl hb
  exact ⟨hx, hf.narrow (by simp [writes])⟩

/-- ISR_COMPLETE in its handler, serving Complete, raises its arm's fault. -/
theorem faulted_isrComplete_of_arm {r : FaultReason} (h : HandlerReady s .convISR) (hs : s.serving .complete = true)
    (hr : s.completeArm d = .error (.fault r)) : Faulted s r (exec (.isrComplete d) s) := by
  have hb : s.serveComplete d = .error (.fault r) := by simp [State.serveComplete, hs, hr]
  exact faulted_of_gate nofun (handlerGate_of_ctx h.ctx _ _) (unmarked_iff.mp h.unmarked) rfl hb

/-! The cycle of `st`. -/

/-- `st` stays, or moves one place round the cycle (41_sampling_sequencer R144). -/
def CycleStep (a b : SampleState) : Prop :=
  b = a ∨ (a = .idle ∧ b = .awaitingReference) ∨ (a = .awaitingReference ∧ b = .awaitingThermistor) ∨
    (a = .awaitingThermistor ∧ b = .idle)

theorem State.requestBy_cycle (h : s.st = .idle) (o : RequestOrder) : CycleStep s.st (s.requestBy o).st := by
  cases o with
  | startFirst => exact .inl rfl
  | atomic | stateFirst => exact .inr (.inl ⟨h, rfl⟩)

/-- The second half that writes `st` finds it Idle: the invariant keeps it there between the halves. -/
theorem State.finishRequest_cycle (h : SequencerInv s.st s.main) (hb : s.finishRequest = .ok t) :
    CycleStep s.st t.st := by
  obtain ⟨-, -, rfl⟩ | ⟨hhalf, rfl⟩ := State.finishRequest_ok.mp hb
  · exact .inl rfl
  · exact .inr (.inl ⟨h.halfIdle hhalf, rfl⟩)

theorem State.completeArm_cycle (hb : s.completeArm d = .ok t) : CycleStep s.st t.st := by
  obtain ⟨-, hb⟩ | ⟨hst, hb⟩ | ⟨hst, rfl⟩ := State.completeArm_ok.mp hb
  · obtain ⟨-, rfl⟩ := State.completeIdle_ok.mp hb
    exact .inl rfl
  · obtain ⟨-, rfl⟩ := State.completeReference_ok.mp hb
    exact .inr (.inr (.inl ⟨hst, rfl⟩))
  · exact .inr (.inr (.inr ⟨hst, rfl⟩))

theorem opBody_cycle (h : Inv s) (hi : i ≠ .reset) (hb : opBody i s = .ok t) : CycleStep s.st t.st := by
  have hf := (frame_opBody hb).parts
  cases i
  case reqCycle =>
    obtain ⟨hst, -, rfl⟩ := State.request_ok.mp (gate_ok.mp hb).2
    exact State.requestBy_cycle hst _
  case reqFinish =>
    obtain ⟨-, -, hseq, -⟩ := inv_iff.mp h
    exact State.finishRequest_cycle hseq (gate_ok.mp hb).2
  case isrComplete d =>
    obtain ⟨u, hu, rfl⟩ := opBody_isrComplete_ok hb
    rw [State.markServed_st]
    exact State.completeArm_cycle hu
  case reset => exact absurd rfl hi
  all_goals exact .inl (hf .st (by simp [writes]))

theorem exec_cycle (h : Inv s) (hi : i ≠ .reset) (hx : exec i s = .next t) : CycleStep s.st t.st := by
  obtain hb | ⟨r, rfl⟩ | ⟨r, rfl⟩ := exec_cases hx
  · exact opBody_cycle h hi hb
  · exact .inl rfl
  · exact .inl rfl

end Sys2Proof.Machine
end

section
/-! PROOFS. The sampling sequencer's obligations: the cycle of `st`, the main flow's operations, and the arms of the
converter interrupt's handler (41_sampling_sequencer). -/

namespace Sys2Proof.Proofs

open Sys2Proof Sys2Proof.Machine

/-- Settles O9: a request moves `st` from Idle, its second half finds it there by the invariant, and each completion arm
moves it on from its own state. -/
theorem sequencerFollowsCycle : Obligations.SequencerFollowsCycle := by
  intro s t h hx hw
  obtain ⟨w, rest, hs, ⟨i, hd, hx⟩ | ⟨-, -, rfl⟩⟩ := step_next hx
  · exact exec_cycle (s := { s with sched := rest }) (h.withSched rest) (fun hi => hw w rest hs (hi ▸ hd)) hx
  · exact .inl rfl

/-- Settles O11, from the parts ISR_OVERFLOW writes. -/
theorem overflowArmLeavesStAndBuf : Obligations.OverflowArmLeavesStAndBuf := fun _ _ hx =>
  ⟨(frame_exec hx).parts .st (by simp [writes]), (frame_exec hx).parts .buf (by simp [writes])⟩

/-! The main flow. -/

/-- Settles O25: the order is the configured or the drawn one, and with SC clear, or under StateFirst, it is
not busy. -/
theorem reqCycleStartsReference : Obligations.ReqCycleStartsReference := by
  intro s hs hidle hfree
  have hbusy : (s.conv.sc && startsAtOnce s.requestOrder) = false := by
    obtain hsc | ho := hfree
    · rw [hsc, Bool.false_and]
    · rw [State.requestOrder_always ho, startsAtOnce, Bool.and_false]
  obtain ⟨hx, hf⟩ :=
    exec_of_mainReady (i := .reqCycle) nofun rfl hs (State.request_ok.mpr ⟨hidle, hbusy, rfl⟩)
  refine ⟨s.requestOrder, _, hx, fun _ => State.requestOrder_always, hf, ?_⟩
  cases s.requestOrder with
  | atomic => exact ⟨rfl, fun _ => ⟨rfl, s.startConversion_started _, hs.whole⟩, nofun, nofun⟩
  | stateFirst => exact ⟨rfl, nofun, fun _ => ⟨rfl, rfl, rfl⟩, nofun⟩
  | startFirst => exact ⟨rfl, nofun, nofun, fun _ => ⟨hidle, s.startConversion_started _, rfl⟩⟩

/-- Settles O26: a request fails where `st` is not Idle, or where its order starts at once on a busy converter; of the
drawn orders StateFirst alone does not. -/
theorem reqCycleFaults : Obligations.ReqCycleFaults := by
  intro s hs
  have busy (hidle : s.st = .idle) (hsc : s.conv.sc = true) (ho : startsAtOnce s.requestOrder = true) :
      Faulted s .converterBusy (exec .reqCycle s) :=
    faulted_of_mainReady nofun rfl hs (State.request_error.mpr (.inr ⟨hidle, by rw [hsc, ho, Bool.and_self], rfl⟩))
  refine ⟨fun hst => faulted_of_mainReady nofun rfl hs (State.request_error.mpr (.inl ⟨hst, rfl⟩)),
    fun hidle hsc p hp hne => busy hidle hsc ?_, fun hidle hsc _ => ?_⟩
  · rwa [State.requestOrder_always hp, startsAtOnce_iff]
  · by_cases ho : s.requestOrder = .stateFirst
    · have hok : s.request = .ok (s.requestBy .stateFirst) :=
        State.request_ok.mpr ⟨hidle, by rw [ho, startsAtOnce, Bool.and_false], by rw [ho]⟩
      obtain ⟨hx, hf⟩ := exec_of_mainReady (i := .reqCycle) nofun rfl hs hok
      exact .inr ⟨_, hx, rfl, rfl, hf.narrow (by simp [writes, Part.same, State.requestBy])⟩
    · exact .inl (busy hidle hsc (startsAtOnce_iff.mpr ho))

/-- Settles O27: REQ_FINISH waits for a pending half, and its body is that half. -/
theorem reqFinishCompletesRequest : Obligations.ReqFinishCompletesRequest := by
  intro s hs
  have ready (h : s.main.half ≠ .none) : s.marked = false ∧ s.finishSteps = true := finishReady_iff.mp ⟨hs, h⟩
  refine ⟨fun hhalf hsc => ?_, fun hhalf hsc => ?_, fun hhalf => ?_, noStep_reqFinish⟩
  · obtain ⟨hm, hg⟩ := ready (by simp [hhalf])
    have hok := State.finishRequest_ok.mpr (.inl ⟨hhalf, hsc, rfl⟩)
    obtain ⟨hx, hf⟩ := exec_of_gate_ok (i := .reqFinish) nofun rfl hm hg hok
    exact ⟨_, hx, s.startConversion_started _, rfl, hf.narrow (by simp [writes, Part.same])⟩
  · obtain ⟨hm, hg⟩ := ready (by simp [hhalf])
    exact faulted_of_gate nofun rfl hm hg (State.finishRequest_error.mpr (.inr ⟨hhalf, hsc, rfl⟩))
  · obtain ⟨hm, hg⟩ := ready (by simp [hhalf])
    have hok := State.finishRequest_ok.mpr (.inr ⟨hhalf, rfl⟩)
    obtain ⟨hx, hf⟩ := exec_of_gate_ok (i := .reqFinish) nofun rfl hm hg hok
    exact ⟨_, hx, rfl, rfl, hf.narrow (by simp [writes, Part.same])⟩

/-- Settles O31: with `main.done` set and no half pending every main-flow gate is shut. -/
theorem endStopsMainFlow : Obligations.EndStopsMainFlow := by
  refine ⟨rfl, fun s => noStep_of_notMainReady (i := .endMain) nofun rfl, fun s hs => ?_⟩
  obtain ⟨hx, hf⟩ := exec_of_mainReady (i := .endMain) nofun rfl hs rfl
  refine ⟨_, hx, rfl, hf, fun i ha => ?_⟩
  by_cases hi : i = .reqFinish
  · subst hi
    exact noStep_reqFinish hs.whole
  · exact splitRequestBlocksMainFlow i _ ha hi (.inr rfl)

/-- Settles O28: a sleeping main flow has no step. -/
theorem sleepSetsBothBits : Obligations.SleepSetsBothBits := by
  refine ⟨rfl, fun s => noStep_of_notMainReady (i := .sleep) nofun rfl, fun s hs => ?_⟩
  obtain ⟨hx, hf⟩ := exec_of_mainReady (i := .sleep) nofun rfl hs rfl
  exact ⟨_, hx, rfl, hf, fun i ha => noStep_of_mainAway ha (.inr rfl)⟩

/-- Settles O29: the body writes gie alone. -/
theorem enableIntSetsGie : Obligations.EnableIntSetsGie := by
  refine ⟨rfl, fun s => noStep_of_notMainReady (i := .enableInt) nofun rfl, fun s hs => ?_⟩
  obtain ⟨hx, hf⟩ := exec_of_mainReady (i := .enableInt) nofun rfl hs rfl
  exact ⟨_, hx, rfl, hf⟩

/-- Settles O30: the body is the state itself. -/
theorem calibrateChangesNothing : Obligations.CalibrateChangesNothing := by
  refine ⟨rfl, fun s => noStep_of_notMainReady (i := .calibrate) nofun rfl, fun s hs => ?_⟩
  exact (exec_of_mainReady (i := .calibrate) nofun rfl hs rfl).1

/-! The handler. -/

/-- Settles O35: the arm reads the last result and restarts the converter, which faults while one is in flight. -/
theorem isrCompleteStoresReference : Obligations.IsrCompleteStoresReference := by
  intro d s f hs hframe hcause hserved hst
  have hserving : s.serving .complete = true := State.serving_iff.mpr ⟨f, hframe, hcause, hserved⟩
  have harm : s.completeArm d = s.completeReference d := by rw [State.completeArm, hst]
  refine ⟨fun hsc => ?_, fun hsc => ?_⟩
  · have hok := harm.trans (State.completeReference_ok.mpr ⟨hsc, rfl⟩)
    obtain ⟨hx, hf⟩ := exec_isrComplete_of_arm hs hserving hok
    have hread : s.resultValue d = s.conv.result := by simp [State.resultValue, hsc]
    exact ⟨_, hx, by simp [hread], s.clearIfg.startConversion_started _, rfl, State.markServed_frame_some hframe, hf⟩
  · exact faulted_isrComplete_of_arm hs hserving (harm.trans (State.completeReference_error.mpr ⟨hsc, rfl⟩))

/-- Settles O36: the arm always completes. -/
theorem isrCompleteFinishesCycle : Obligations.IsrCompleteFinishesCycle := by
  intro d s f hs hframe hcause hserved hst
  have hok : s.completeArm d = .ok (s.completeThermistor d) := by rw [State.completeArm, hst]
  obtain ⟨hx, hf⟩ := exec_isrComplete_of_arm hs (State.serving_iff.mpr ⟨f, hframe, hcause, hserved⟩) hok
  have hwake : (s.completeThermistor d).frame = some { f with lpm := false } := by
    simp [State.completeThermistor, hframe]
  exact ⟨_, hx, rfl, rfl, rfl, State.markServed_frame_some hwake, hf⟩

/-- Settles O37: the arm of Idle is IDLE_COMPLETION's, the reserved code has none but the fault, and a cause not being
served is refused before any arm. -/
theorem isrCompleteOutsideCycle : Obligations.IsrCompleteOutsideCycle := by
  intro d s hs
  refine ⟨fun f hframe hcause hserved => ?_, fun hother => ?_⟩
  · have hserving : s.serving .complete = true := State.serving_iff.mpr ⟨f, hframe, hcause, hserved⟩
    refine ⟨fun hst hpol => ?_, fun hst hpol => ?_, fun hst => ?_⟩
    · have hok : s.completeArm d = .ok s.clearIfg := by simp [State.completeArm, State.completeIdle, hst, hpol]
      obtain ⟨hx, hf⟩ := exec_isrComplete_of_arm hs hserving hok
      exact ⟨_, hx, rfl, State.markServed_frame_some hframe, hf.narrow (by simp [Part.same])⟩
    · exact faulted_isrComplete_of_arm hs hserving (by simp [State.completeArm, State.completeIdle, hst, hpol])
    · exact faulted_isrComplete_of_arm hs hserving (by simp [State.completeArm, hst])
  · have hrefuse : s.serveComplete d = .error (.refuse .wrongContext) := by
      simp [State.serveComplete, State.not_serving hother]
    exact refused_of_gate nofun (handlerGate_of_ctx hs.ctx _ _) (unmarked_iff.mp hs.unmarked) rfl hrefuse

/-- Settles O38: the arm clears OVIFG and serves the frame, and a cause not being served is refused. -/
theorem isrOverflowClearsOvifg : Obligations.IsrOverflowClearsOvifg := by
  refine ⟨rfl, fun s hs => ?_⟩
  have hm : s.marked = false := unmarked_iff.mp hs.unmarked
  have hbody : opBody .isrOverflow s = gate true s.serveOverflow := handlerGate_of_ctx hs.ctx _ _
  refine ⟨fun f hframe hcause hserved => ?_, fun hother => ?_⟩
  · have hok := State.serveOverflow_ok.mpr ⟨State.serving_iff.mpr ⟨f, hframe, hcause, hserved⟩, rfl⟩
    obtain ⟨hx, hf⟩ := exec_of_gate_ok (i := .isrOverflow) nofun hbody hm rfl hok
    exact ⟨_, hx, rfl, State.markServed_frame_some hframe, hf⟩
  · have hrefuse : s.serveOverflow = .error (.refuse .wrongContext) := by
      simp [State.serveOverflow, State.not_serving hother]
    exact refused_of_gate nofun hbody hm rfl hrefuse

/-- Settles O39: WAKE waits for a frame, and its body always completes. -/
theorem wakeClearsSavedLpm : Obligations.WakeClearsSavedLpm := by
  refine ⟨rfl, fun s hctx hframe => ?_, fun s f hs hframe => ?_⟩
  · refine noStep_of_gate (i := .wake) nofun (handlerGate_of_ctx hctx _ _) fun ⟨_, hg⟩ => ?_
    simp [hframe] at hg
  · obtain ⟨hx, hf⟩ :=
      exec_of_gate_ok (i := .wake) nofun (handlerGate_of_ctx hs.ctx _ _) (unmarked_iff.mp hs.unmarked)
        (by simp [hframe]) rfl
    exact ⟨_, hx, by simp [hframe], hf⟩

end Sys2Proof.Proofs
end

section
/-! SUPPORT. What a handler's operation answers in its own context; the scan of a checked one-entry table, the reply as it
reads back, and the bodies of the custom command (42_dispatch R163 to R168); and that the RF side neither reads nor
writes the sequencer's state (R171). -/

namespace Sys2Proof.Machine

variable {s t u : State} {i : Instr} {e : Bool} {b : Except Stop State} {x : Ctx} {id : Word}

/-! A handler's operation in its own context. -/

/-- A handler's operation whose condition holds and whose body completes is that body. -/
theorem exec_of_handlerReady (hi : i ≠ .reset) (hb : opBody i s = handlerGate s x e b) (h : HandlerReady s x)
    (he : e = true) (hu : b = .ok u) : exec i s = .next u ∧ UnchangedExcept (writes i) s u :=
  exec_of_gate_ok hi (hb.trans (handlerGate_of_ctx h.ctx e b)) (unmarked_iff.mp h.unmarked) he hu

/-- A handler's operation whose condition fails has no step in its own context (30_encoding R83; log 16). -/
theorem noStep_of_handlerShut (hi : i ≠ .reset) (hb : opBody i s = handlerGate s x e b) (h : HandlerReady s x)
    (he : ¬ e = true) : NoStep (exec i s) :=
  noStep_of_gate hi (hb.trans (handlerGate_of_ctx h.ctx e b)) fun hg => he hg.2

theorem faulted_of_handlerReady {r : FaultReason} (hi : i ≠ .reset) (hb : opBody i s = handlerGate s x e b)
    (h : HandlerReady s x) (he : e = true) (hr : b = .error (.fault r)) : Faulted s r (exec i s) :=
  faulted_of_gate hi (hb.trans (handlerGate_of_ctx h.ctx e b)) (unmarked_iff.mp h.unmarked) he hr

theorem refused_of_handlerReady {r : RefusalReason} (hi : i ≠ .reset) (hb : opBody i s = handlerGate s x e b)
    (h : HandlerReady s x) (he : e = true) (hr : b = .error (.refuse r)) : Refused s r (exec i s) :=
  refused_of_gate hi (hb.trans (handlerGate_of_ctx h.ctx e b)) (unmarked_iff.mp h.unmarked) he hr

/-! The lookup. -/

/-- The one pair of a one-entry image (42_dispatch R170). -/
theorem entries_oneEntry {c : Config} (hi : c.dtImage = c.oneEntryImage) :
    c.commandIds.zip c.handlerAddrs = [(c.cmdId, c.handlerAddr)] := by
  simp [Config.commandIds, Config.handlerAddrs, hi, Config.oneEntryImage, Config.dtN]

/-- The scan of a checked one-entry table finds the configured command alone: a second entry's place holds the end key
(42_dispatch R163, R169, R170). -/
theorem State.lookupId_oneEntry (h : s.cfg.refusal = none) (hi : s.cfg.dtImage = s.cfg.oneEntryImage) (hm : MemoryInv s)
    (id : Word) : s.lookupId id = .ok (if s.cfg.cmdId = id then some s.cfg.handlerAddr else none) := by
  have word {k : Nat} {w : Word} (hk : k < 4) (hw : s.cfg.oneEntryImage[k]? = some w) : s.tableWord k = .ok w :=
    State.tableWord_of h hm hk (hi ▸ hw)
  have hstart : s.tableWord 0 = .ok s.cfg.dtKey := word (by omega) rfl
  have hid : s.tableWord 1 = .ok s.cfg.cmdId := word (by omega) rfl
  have haddr : s.tableWord 2 = .ok s.cfg.handlerAddr := word (by omega) rfl
  have hend : s.tableWord 3 = .ok s.cfg.dtKey := word (by omega) rfl
  obtain ⟨hkey, hmax⟩ := Config.oneEntry_checked h hi
  obtain ⟨n, hn⟩ := Nat.exists_eq_add_of_le' hmax
  have hrest : s.scanFrom id n 3 = .ok none := by
    cases n with
    | zero => rfl
    | succ n => simp [State.scanFrom, hend]
  by_cases hf : s.cfg.cmdId = id
  · subst hf
    simp [State.lookupId, State.scanFrom, hstart, hn, hid, haddr, hkey]
  · simp [State.lookupId, State.scanFrom, hstart, hn, hid, hkey, hf, hrest]

/-- DT_LOOKUP in phase Lookup over a checked one-entry table (42_dispatch R163). -/
theorem exec_dtLookup_oneEntry (hs : HandlerReady s .rfISR) (h : s.cfg.refusal = none)
    (hi : s.cfg.dtImage = s.cfg.oneEntryImage) (hm : MemoryInv s) (hphase : s.rf.phase = .lookup)
    (hid : s.rf.pending = some id) :
    ∃ t, exec .dtLookup s = .next t ∧
      t.rf = ⟨none, phaseOf (if s.cfg.cmdId = id then some s.cfg.handlerAddr else none)⟩ ∧ UnchangedExcept [.rf] s t := by
  have hok := State.lookupPending_ok.mpr ⟨id, _, hid, State.lookupId_oneEntry h hi hm id, rfl⟩
  obtain ⟨hx, hf⟩ := exec_of_handlerReady (i := .dtLookup) nofun rfl hs (decide_eq_true hphase) hok
  exact ⟨_, hx, rfl, hf⟩

theorem invoking_iff {p : Phase} : invoking p = true ↔ ∃ a, p = .invoke a := by
  cases p <;> simp [invoking]

/-! The reply. -/

theorem State.wordAt_of_bytes {a : Nat} {w : Word} (h0 : s.readByte a = some (ByteOrder.first s.cfg.byteOrder w))
    (h1 : s.readByte (a + 1) = some (ByteOrder.second s.cfg.byteOrder w)) : s.wordAt a = some w := by
  simp [State.wordAt, h0, h1, ByteOrder.join_bytes]

/-- The reply once written, read as its two words (10_state R45, 42_dispatch R166). -/
theorem State.reply_replyWritten (h : s.cfg.refusal = none) (v : Word) :
    (s.replyWritten v).reply = ⟨some s.cfg.replyLenWord, some v⟩ := by
  obtain ⟨h0, h1, h2, h3, -⟩ := State.readByte_replyWritten h v
  have hlen : (s.replyWritten v).wordAt s.cfg.replyBase.toNat = some s.cfg.replyLenWord :=
    State.wordAt_of_bytes h0 h1
  have hval : (s.replyWritten v).wordAt (s.cfg.replyBase.toNat + 2) = some v := State.wordAt_of_bytes h2 h3
  change Reply.mk ((s.replyWritten v).wordAt s.cfg.replyBase.toNat)
    ((s.replyWritten v).wordAt (s.cfg.replyBase.toNat + 2)) = _
  rw [hlen, hval]

/-- Little-endian bytes in numbers: the low byte lies at the lower address (20_memory R52). -/
theorem ByteOrder.little_bytes (v : Word) :
    ByteOrder.first .little v = v.setWidth 8 ∧ ByteOrder.second .little v = (v >>> 8).setWidth 8 :=
  ⟨(BitVec.setWidth_eq_extractLsb' (by omega)).symm, rfl⟩

/-- Big-endian bytes in numbers: the high byte lies at the lower address (20_memory R52). -/
theorem ByteOrder.big_bytes (v : Word) :
    ByteOrder.first .big v = (v >>> 8).setWidth 8 ∧ ByteOrder.second .big v = v.setWidth 8 :=
  (ByteOrder.little_bytes v).symm

/-- Under a checked configuration CUSTOM_FINISH's body completes (42_dispatch R167). -/
theorem State.customEnd_of (h : s.cfg.refusal = none) (d : Word) :
    s.customEnd d = .ok { s.clearIfg.replyWritten (s.resultValue d) with rf := { s.rf with phase := .done } } := by
  rw [State.customEnd, State.writeReply_of (s := s.clearIfg) h]
  rfl

/-- CUSTOM_FINISH's condition (42_dispatch R167). -/
theorem customFinishGate_iff :
    (decide (s.rf.phase = .wait) && (!s.cfg.delaySufficient || !s.conv.sc)) = true ↔
      s.rf.phase = .wait ∧ (s.cfg.delaySufficient = false ∨ s.conv.sc = false) := by
  simp

/-- RF_RETURN's condition (42_dispatch R168). -/
theorem rfReturnGate_iff {w : Bool} :
    (decide (s.rf.phase = .done) && (!w || s.cfg.rfIsrMayWake)) = true ↔
      s.rf.phase = .done ∧ (w = false ∨ s.cfg.rfIsrMayWake = true) := by
  simp

theorem State.customBegin_busy (h : s.conv.sc = true) : s.customBegin = .error (.fault .converterBusy) := by
  simp [State.customBegin, State.configureAndStart, h]

/-! The RF side and the sequencer (42_dispatch R171). -/

/-- The state with another sequencer state and another samples buffer. -/
def State.withSequencer (s : State) (st : SampleState) (buf : Samples) : State := { s with st := st, buf := buf }

section
variable (s : State) (st : SampleState) (buf : Samples)

@[simp] theorem State.withSequencer_conv : (s.withSequencer st buf).conv = s.conv := rfl
@[simp] theorem State.withSequencer_frame : (s.withSequencer st buf).frame = s.frame := rfl
@[simp] theorem State.withSequencer_rf : (s.withSequencer st buf).rf = s.rf := rfl
@[simp] theorem State.withSequencer_cfg : (s.withSequencer st buf).cfg = s.cfg := rfl
@[simp] theorem State.withSequencer_marked : (s.withSequencer st buf).marked = s.marked := rfl

@[simp] theorem State.withSequencer_resultValue (d : Word) :
    (s.withSequencer st buf).resultValue d = s.resultValue d := rfl

@[simp] theorem State.withSequencer_clearIfg :
    (s.withSequencer st buf).clearIfg = s.clearIfg.withSequencer st buf := rfl

theorem State.commit_withSequencer (b : Except Stop State) :
    (s.withSequencer st buf).commit (b.map (·.withSequencer st buf)) = mapNext (·.withSequencer st buf) (s.commit b) := by
  rcases b with (r | r | f) | t <;> rfl

theorem gate_withSequencer (e : Bool) {b b' : Except Stop State} (hb : b' = b.map (·.withSequencer st buf)) :
    gate e b' = (gate e b).map (·.withSequencer st buf) := by
  subst hb
  cases e <;> rfl

theorem handlerGate_withSequencer (x : Ctx) (e : Bool) {b b' : Except Stop State}
    (hb : b' = b.map (·.withSequencer st buf)) :
    handlerGate (s.withSequencer st buf) x e b' = (handlerGate s x e b).map (·.withSequencer st buf) := by
  by_cases h : s.cpu.ctx = x
  · rw [handlerGate_of_ctx h, handlerGate_of_ctx (s := s.withSequencer st buf) h]
    exact gate_withSequencer st buf e hb
  · rw [handlerGate_wrongContext h]
    exact handlerGate_wrongContext (s := s.withSequencer st buf) h _ _

theorem State.scanFrom_withSequencer (id : Word) (n k : Nat) :
    (s.withSequencer st buf).scanFrom id n k = s.scanFrom id n k := by
  induction n generalizing k with
  | zero => rfl
  | succ n ih =>
    simp only [State.scanFrom, ih]
    rfl

theorem State.lookupId_withSequencer (id : Word) : (s.withSequencer st buf).lookupId id = s.lookupId id := by
  simp only [State.lookupId, State.scanFrom_withSequencer]
  rfl

theorem State.lookupPending_withSequencer :
    (s.withSequencer st buf).lookupPending = s.lookupPending.map (·.withSequencer st buf) := by
  simp only [State.lookupPending, State.lookupId_withSequencer]
  rw [State.withSequencer_rf]
  cases s.rf.pending with
  | none => rfl
  | some id =>
    dsimp only
    cases s.lookupId id <;> rfl

theorem State.memWrite_withSequencer (a n : Nat) (v : Word) :
    (s.withSequencer st buf).memWrite a n v = (s.memWrite a n v).map (·.withSequencer st buf) := by
  unfold State.memWrite
  cases accessRefusal a n with
  | some r => rfl
  | none =>
    rw [State.withSequencer_cfg]
    cases s.cfg.inTable a || s.cfg.inTable (a + 1) <;> rfl

theorem State.writeReply_withSequencer (v : Word) :
    (s.withSequencer st buf).writeReply v = (s.writeReply v).map (·.withSequencer st buf) := by
  simp only [State.writeReply, State.memWrite_withSequencer, State.withSequencer_cfg]
  cases s.memWrite s.cfg.replyBase.toNat 2 s.cfg.replyLenWord with
  | error x => rfl
  | ok u => exact u.memWrite_withSequencer st buf _ _ _

theorem State.customEnd_withSequencer (d : Word) :
    (s.withSequencer st buf).customEnd d = (s.customEnd d).map (·.withSequencer st buf) := by
  simp only [State.customEnd, State.withSequencer_clearIfg, State.withSequencer_resultValue,
    State.writeReply_withSequencer]
  cases s.clearIfg.writeReply (s.resultValue d) <;> rfl

theorem State.customBegin_withSequencer :
    (s.withSequencer st buf).customBegin = s.customBegin.map (·.withSequencer st buf) := by
  unfold State.customBegin State.configureAndStart
  rw [State.withSequencer_conv]
  cases s.conv.sc <;> rfl

theorem State.invokeHandler_withSequencer :
    (s.withSequencer st buf).invokeHandler = s.invokeHandler.map (·.withSequencer st buf) := by
  unfold State.invokeHandler
  rw [State.withSequencer_rf, State.withSequencer_cfg]
  cases s.rf.phase with
  | invoke a => by_cases h : a = s.cfg.handlerAddr <;> simp only [h, if_true, if_false] <;> rfl
  | _ => rfl

theorem State.rfReturnBody_withSequencer (w : Bool) :
    (s.withSequencer st buf).rfReturnBody w = (s.rfReturnBody w).map (·.withSequencer st buf) := by
  unfold State.rfReturnBody
  rw [State.withSequencer_frame]
  cases s.frame <;> rfl

/-- The body of an RF-side operation carries the sequencer's state through. -/
theorem opBody_withSequencer {i : Instr} (hi : rfSide i = true) :
    opBody i (s.withSequencer st buf) = (opBody i s).map (·.withSequencer st buf) := by
  cases i with
  | rfFrame | rfIrqEntry => exact gate_withSequencer st buf _ rfl
  | dtLookup => exact handlerGate_withSequencer s st buf _ _ (s.lookupPending_withSequencer st buf)
  | dtInvoke => exact handlerGate_withSequencer s st buf _ _ (s.invokeHandler_withSequencer st buf)
  | customStart => exact handlerGate_withSequencer s st buf _ _ (s.customBegin_withSequencer st buf)
  | customFinish d => exact handlerGate_withSequencer s st buf _ _ (s.customEnd_withSequencer st buf d)
  | replyWrite v => exact handlerGate_withSequencer s st buf _ _ (s.writeReply_withSequencer st buf v)
  | rfReturn w => exact handlerGate_withSequencer s st buf _ _ (s.rfReturnBody_withSequencer st buf w)
  | _ => cases hi

theorem ne_reset_of_rfSide {i : Instr} (hi : rfSide i = true) : i ≠ .reset := by
  rintro rfl
  cases hi

theorem exec_withSequencer {i : Instr} (hi : rfSide i = true) :
    exec i (s.withSequencer st buf) = mapNext (·.withSequencer st buf) (exec i s) := by
  rw [exec_eq (ne_reset_of_rfSide hi), exec_eq (ne_reset_of_rfSide hi), opBody_withSequencer s st buf hi,
    s.commit_withSequencer st buf, State.withSequencer_marked]
  cases s.marked <;> rfl

end

theorem notMem_writes_of_rfSide (hi : rfSide i = true) : .st ∉ writes i ∧ .buf ∉ writes i := by
  cases i with
  | rfFrame | rfIrqEntry | dtLookup | dtInvoke | customStart | customFinish | replyWrite | rfReturn => simp [writes]
  | _ => cases hi

/-- CUSTOM_START and CUSTOM_FINISH alone of the RF side write CONV (42_dispatch R165, R167). -/
theorem opBody_conv_of_rfSide (hi : rfSide i = true) (hb : opBody i s = .ok t) :
    t.conv = s.conv ∨ t.conv = { s.conv with ifg := false } ∨ ∃ ch, Started s.cfg ch s.conv t.conv := by
  cases i with
  | customStart =>
    obtain ⟨-, -, hb⟩ := handlerGate_ok.mp hb
    obtain ⟨-, rfl⟩ := State.customBegin_ok.mp hb
    exact .inr (.inr ⟨_, s.startConversion_started _⟩)
  | customFinish d =>
    obtain ⟨-, -, hb⟩ := handlerGate_ok.mp hb
    obtain ⟨rfl, -⟩ := State.customEnd_ok hb
    exact .inr (.inl rfl)
  | rfFrame | rfIrqEntry | dtLookup | dtInvoke | replyWrite | rfReturn =>
    exact .inl ((frame_opBody hb).parts .conv (by simp [writes]))
  | _ => cases hi

end Sys2Proof.Machine
end

section
/-! PROOFS. The RF side's obligations: the frame, the interrupt, the lookup, the custom handler and its reply, the return,
and that none of it touches the sequencer (42_dispatch). -/

namespace Sys2Proof.Proofs

open Sys2Proof Sys2Proof.Machine

/-- Settles O42: the identifier is the word's `data` field, and the step waits for no pending frame and phase Idle. -/
theorem rfFrameIsPending : Obligations.RfFrameIsPending := by
  intro id
  refine ⟨eventWord_eq_or 0x40 0 id, fun s h => ?_, fun s hm hp hidle => ?_⟩
  · refine noStep_of_gate (i := .rfFrame id) nofun rfl fun ⟨hm, hg⟩ => h ⟨unmarked_iff.mpr hm, ?_⟩
    simpa using hg
  · obtain ⟨hx, hf⟩ :=
      exec_of_gate_ok (i := .rfFrame id) nofun rfl (unmarked_iff.mp hm) (by simp [hp, hidle]) rfl
    exact ⟨_, hx, by simp [hidle], hf⟩

/-- Settles O43: the entry waits for an open entry and a pending command, and its body always completes. -/
theorem rfIrqEntrySavesFrame : Obligations.RfIrqEntrySavesFrame := by
  refine ⟨rfl, fun s => ⟨fun h => ?_, fun hs hp => ?_⟩⟩
  · refine noStep_of_gate (i := .rfIrqEntry) nofun rfl fun ⟨hm, hg⟩ => h ?_
    obtain ⟨ho, hp⟩ := Bool.and_eq_true_iff.mp hg
    exact ⟨entryReady_iff.mpr ⟨hm, ho⟩, Option.isSome_iff_ne_none.mp hp⟩
  · obtain ⟨hm, ho⟩ := entryReady_iff.mp hs
    have hg : (s.entryOpen && s.rfPending) = true := Bool.and_eq_true_iff.mpr ⟨ho, Option.isSome_iff_ne_none.mpr hp⟩
    obtain ⟨hx, hf⟩ := exec_of_gate_ok (i := .rfIrqEntry) nofun rfl hm hg rfl
    exact ⟨_, hx, rfl, rfl, rfl, hf.narrow (by simp [writes])⟩

/-- Settles O44, from the scan of a one-entry table. -/
theorem lookupFindsConfiguredCommand : Obligations.LookupFindsConfiguredCommand := by
  intro c h hi
  refine ⟨entries_oneEntry hi, ?_⟩
  rintro s rfl hm hs hphase hid
  simpa [phaseOf] using exec_dtLookup_oneEntry hs h hi hm hphase hid

/-- Settles O45, from the scan of a one-entry table. -/
theorem lookupOfOtherIdFindsNothing : Obligations.LookupOfOtherIdFindsNothing := by
  intro s hs
  refine ⟨fun hphase => noStep_of_handlerShut (i := .dtLookup) nofun rfl hs (by simpa using hphase), ?_⟩
  intro id h hi hm hphase hid hne
  simpa [phaseOf, hne.symm] using exec_dtLookup_oneEntry hs h hi hm hphase hid

/-- Settles O46: the body compares the address looked up with the handler's. -/
theorem invokeEntersHandler : Obligations.InvokeEntersHandler := by
  refine ⟨rfl, fun s hs => ⟨fun hphase => ?_, fun a hphase hne => ?_, fun hphase => ?_⟩⟩
  · have hok := State.invokeHandler_ok.mpr ⟨hphase, rfl⟩
    obtain ⟨hx, hf⟩ := exec_of_handlerReady (i := .dtInvoke) nofun rfl hs (invoking_iff.mpr ⟨_, hphase⟩) hok
    exact ⟨_, hx, rfl, hf⟩
  · have hrefuse : s.invokeHandler = .error (.refuse .unknownHandler) := by simp [State.invokeHandler, hphase, hne]
    exact refused_of_handlerReady nofun rfl hs (invoking_iff.mpr ⟨a, hphase⟩) hrefuse
  · exact noStep_of_handlerShut (i := .dtInvoke) nofun rfl hs fun hg => (invoking_iff.mp hg).elim hphase

/-- Settles O47: the body is configure_and_start of CUSTOM_CH and the phase's write. -/
theorem customStartConverts : Obligations.CustomStartConverts := by
  refine ⟨rfl, fun s hs => ⟨fun hphase hsc => ?_, fun hphase hsc => ?_, fun hphase => ?_⟩⟩
  · have hok := State.customBegin_ok.mpr ⟨hsc, rfl⟩
    obtain ⟨hx, hf⟩ := exec_of_handlerReady (i := .customStart) nofun rfl hs (decide_eq_true hphase) hok
    exact ⟨_, hx, s.startConversion_started _, rfl, hf⟩
  · exact faulted_of_handlerReady (i := .customStart) nofun rfl hs (decide_eq_true hphase) (State.customBegin_busy hsc)
  · exact noStep_of_handlerShut (i := .customStart) nofun rfl hs (by simpa using hphase)

/-- Settles O48: the body clears IFG, writes the reply from the value read, and enters phase Done. -/
theorem customFinishReplies : Obligations.CustomFinishReplies := by
  intro d s hs
  have shut (h : ¬ (s.rf.phase = .wait ∧ (s.cfg.delaySufficient = false ∨ s.conv.sc = false))) :
      NoStep (exec (.customFinish d) s) :=
    noStep_of_handlerShut (i := .customFinish d) nofun rfl hs fun hg => h (customFinishGate_iff.mp hg)
  refine ⟨fun hphase => shut fun h => hphase h.1, fun hd hsc => shut (by simp [hd, hsc]), fun hr hphase hfree => ?_⟩
  have hok := State.customEnd_of hr d
  obtain ⟨hx, hf⟩ :=
    exec_of_handlerReady (i := .customFinish d) nofun rfl hs (customFinishGate_iff.mpr ⟨hphase, hfree⟩) hok
  obtain ⟨-, -, -, -, hother⟩ := State.readByte_replyWritten (s := s.clearIfg) hr (s.resultValue d)
  exact ⟨_, hx, State.reply_replyWritten (s := s.clearIfg) hr _, rfl, rfl, hother, hf⟩

/-- Settles O49: the body writes the reply, whose bytes read back in the configured order. -/
theorem replyWriteStoresTwoWords : Obligations.ReplyWriteStoresTwoWords := by
  intro v s hs hr
  obtain ⟨hx, hf⟩ := exec_of_handlerReady (i := .replyWrite v) nofun rfl hs rfl (State.writeReply_of hr v)
  obtain ⟨-, -, hfirst, hsecond, hother⟩ := State.readByte_replyWritten hr v
  refine ⟨_, hx, State.reply_replyWritten hr v, fun ho => ?_, fun ho => ?_, hother, hf⟩
  · obtain ⟨hlow, hhigh⟩ := ByteOrder.little_bytes v
    exact ⟨by rw [hfirst, ho, hlow], by rw [hsecond, ho, hhigh]⟩
  · obtain ⟨hhigh, hlow⟩ := ByteOrder.big_bytes v
    exact ⟨by rw [hfirst, ho, hhigh], by rw [hsecond, ho, hlow]⟩

/-- Settles O50: the body restores the frame's bits, the low-power bit only where `w` does not clear it. -/
theorem rfReturnRestoresSavedBits : Obligations.RfReturnRestoresSavedBits := by
  refine ⟨rfl, rfl, fun w s hs => ⟨fun h => ?_, fun f hframe hphase hwake => ?_⟩⟩
  · refine noStep_of_handlerShut (i := .rfReturn w) nofun rfl hs fun hg => ?_
    obtain ⟨hphase, hwake⟩ := rfReturnGate_iff.mp hg
    obtain hne | ⟨hw, hmay⟩ := h
    · exact hne hphase
    · simp [hw, hmay] at hwake
  · have hok := State.rfReturnBody_ok (w := w).mpr ⟨f, hframe, rfl⟩
    obtain ⟨hx, hf⟩ := exec_of_handlerReady (i := .rfReturn w) nofun rfl hs (rfReturnGate_iff.mpr ⟨hphase, hwake⟩) hok
    exact ⟨_, hx, by cases w <;> simp, rfl, rfl, hf.narrow (by simp [writes])⟩

/-- Settles O53: the bodies carry `st` and `buf` through, and of the RF side CUSTOM_START and CUSTOM_FINISH alone write
CONV. -/
theorem rfSideIsBlindToSequencer : Obligations.RfSideIsBlindToSequencer := by
  refine fun i s hi => ⟨fun st buf => exec_withSequencer s st buf hi, fun t hx => ?_⟩
  obtain ⟨hst, hbuf⟩ := notMem_writes_of_rfSide hi
  have hf := (frame_exec hx).parts
  refine ⟨hf .st (by simp [hst]), hf .buf (by simp [hbuf]), ?_⟩
  obtain hb | ⟨r, rfl⟩ | ⟨r, rfl⟩ := exec_cases hx
  · exact opBody_conv_of_rfSide hi hb
  · exact .inl rfl
  · exact .inl rfl

end Sys2Proof.Proofs
end

section
/-! SUPPORT. Where the marks are written (60_exceptions R205, R214); what an operation does to the main flow's low-power
bit, in `cpu` while the main flow executes and in the frame while a handler does (R224); and that serving one converter
cause does not see the other's flag (R210). -/

namespace Sys2Proof.Machine

variable {s t u : State} {i : Instr} {d : Word}

/-! The marks. -/

theorem marks_notMem_writes (hi : i ≠ .reset) : .marks ∉ writes i := by
  cases i with
  | reset => exact absurd rfl hi
  | _ => simp [writes]

theorem marked_of_not_unmarked (h : ¬ Unmarked s) : s.marked = true := by rwa [unmarked_iff, Bool.not_eq_false] at h

/-- RESET clears both marks under a checked configuration (70_reset_and_hazards R240). -/
theorem State.afterReset_unmarked (h : s.cfg.refusal = none) : Unmarked s.afterReset := by
  rw [State.afterReset_runs h]
  exact ⟨rfl, rfl⟩

theorem State.afterReset_marks (s : State) :
    Unmarked s.afterReset ∨ s.afterReset = { s with marks := s.afterReset.marks } := by
  cases h : s.cfg.refusal with
  | none => exact .inl (State.afterReset_unmarked h)
  | some r =>
    rw [State.afterReset_refused h]
    exact .inr rfl

/-- A body that completes keeps the marks; RESET's clears them, or writes nothing else. -/
theorem opBody_marks (hb : opBody i s = .ok t) :
    t.marks = s.marks ∨ Unmarked t ∨ t = { s with marks := t.marks } := by
  by_cases hi : i = .reset
  · subst hi
    cases hb
    exact .inr s.afterReset_marks
  · exact .inl ((frame_opBody hb).parts .marks (marks_notMem_writes hi))

/-! The low-power bit. -/

/-- The operations that clear the saved low-power bit of the frame they leave: WAKE and the AwaitingThermistor arm
(41_sampling_sequencer R135, R138). -/
def ClearsSavedLpm (i : Instr) (s : State) : Prop := i = .wake ∨ ∃ d, i = .isrComplete d ∧ s.st = .awaitingThermistor

/-- What an operation but RESET does to `cpu` and to the frame, as far as the low-power bit goes. -/
inductive LpmStep (i : Instr) (s t : State) : Prop
  /-- The frame stays, and a sleeping processor's state too. -/
  | stay (hframe : t.frame = s.frame) (hcpu : s.cpu.lpm = true → t.cpu = s.cpu)
  /-- An interrupt is taken, and the bit saved. -/
  | enter (hfree : s.frame = none) (hctx : t.cpu.ctx ≠ .main) {f : Saved} (hframe : t.frame = some f)
      (hlpm : f.lpm = s.cpu.lpm)
  /-- A handler writes its frame. -/
  | handle (hctx : s.cpu.ctx ≠ .main) {m : Saved → Saved} (hframe : t.frame = s.frame.map m)
      (hlpm : (∀ f, (m f).lpm = f.lpm) ∨ ClearsSavedLpm i s)
  /-- A handler returns, and the saved bit is restored, unless RF_RETURN clears it. -/
  | leave (hctx : s.cpu.ctx ≠ .main) {f : Saved} (hframe : s.frame = some f) (hfree : t.frame = none)
      (hlpm : t.cpu.lpm = f.lpm ∨ i = .rfReturn true)

/-- Of the completion arms AwaitingThermistor's alone writes the frame (41_sampling_sequencer R134 to R136). -/
theorem State.completeArm_frame (h : s.completeArm d = .ok u) :
    u.frame = s.frame ∨ (s.st = .awaitingThermistor ∧ u.frame = s.signalWake.frame) := by
  obtain ⟨-, h⟩ | ⟨-, h⟩ | ⟨hst, rfl⟩ := State.completeArm_ok.mp h
  · obtain ⟨-, rfl⟩ := State.completeIdle_ok.mp h
    exact .inl rfl
  · obtain ⟨-, rfl⟩ := State.completeReference_ok.mp h
    exact .inl rfl
  · exact .inr ⟨hst, rfl⟩

theorem LpmStep.of_completeArm (hctx : s.cpu.ctx ≠ .main) (h : s.completeArm d = .ok u) :
    LpmStep (.isrComplete d) s u.markServed := by
  obtain hf | ⟨hst, hf⟩ := State.completeArm_frame h
  · exact .handle hctx (u.markServed_frame.trans (congrArg (Option.map _) hf)) (.inl fun _ => rfl)
  · refine .handle hctx (m := fun f => { f with lpm := false, served := true }) ?_ (.inr (.inr ⟨d, rfl, hst⟩))
    rw [State.markServed_frame, hf, State.signalWake_frame, Option.map_map]
    rfl

theorem LpmStep.of_opBody (hi : i ≠ .reset) (hb : opBody i s = .ok t) : LpmStep i s t := by
  have hf := (frame_opBody hb).parts
  have notMain {x : Ctx} (hx : s.cpu.ctx = x) (hne : x ≠ .main) : s.cpu.ctx ≠ .main := hx ▸ hne
  cases i
  case sleep | enableInt =>
    obtain ⟨hg, -⟩ := gate_ok.mp hb
    obtain ⟨-, hawake, -, -⟩ := State.mainSteps_iff.mp hg
    exact .stay (hf .frame (by simp [writes])) fun hl => by simp [hawake] at hl
  case convIrqEntry | rfIrqEntry =>
    obtain ⟨hg, hb⟩ := gate_ok.mp hb
    cases hb
    obtain ⟨-, -, hfree⟩ := State.entryOpen_iff.mp (Bool.and_eq_true_iff.mp hg).1
    exact .enter hfree nofun rfl rfl
  case isrComplete d =>
    obtain ⟨hx, -, -⟩ := handlerGate_ok.mp hb
    obtain ⟨u, hu, rfl⟩ := opBody_isrComplete_ok hb
    exact .of_completeArm (notMain hx nofun) hu
  case isrOverflow =>
    obtain ⟨hx, -, hb⟩ := handlerGate_ok.mp hb
    obtain ⟨-, rfl⟩ := State.serveOverflow_ok.mp hb
    exact .handle (notMain hx nofun) rfl (.inl fun _ => rfl)
  case wake =>
    obtain ⟨hx, -, hb⟩ := handlerGate_ok.mp hb
    cases hb
    exact .handle (notMain hx nofun) rfl (.inr (.inl rfl))
  case reti =>
    obtain ⟨hx, -, hb⟩ := handlerGate_ok.mp hb
    obtain ⟨f, hframe, -, rfl⟩ := State.returnServed_ok.mp hb
    exact .leave (notMain hx nofun) hframe rfl (.inl rfl)
  case rfReturn w =>
    obtain ⟨hx, -, hb⟩ := handlerGate_ok.mp hb
    obtain ⟨f, hframe, rfl⟩ := State.rfReturnBody_ok.mp hb
    refine .leave (notMain hx nofun) hframe rfl ?_
    cases w with
    | false => exact .inl (Bool.and_true f.lpm)
    | true => exact .inr rfl
  case reset => exact absurd rfl hi
  all_goals exact .stay (hf .frame (by simp [writes])) fun _ => hf .cpu (by simp [writes])

/-- A step that sets a mark leaves `cpu` and the frame (60_exceptions R214). -/
theorem LpmStep.of_exec (hi : i ≠ .reset) (hx : exec i s = .next t) : LpmStep i s t := by
  obtain hb | ⟨r, rfl⟩ | ⟨r, rfl⟩ := exec_cases hx
  · exact .of_opBody hi hb
  · exact .stay rfl fun _ => rfl
  · exact .stay rfl fun _ => rfl

/-- With no handler running, a sleeping main flow stays asleep or its bit is saved. -/
theorem LpmStep.asleep (h : LpmStep i s t) (hctx : s.cpu.ctx = .main) (hlpm : s.cpu.lpm = true)
    (hfree : s.frame = none) :
    (t.cpu.ctx = .main ∧ t.cpu.lpm = true ∧ t.frame = none) ∨
      (t.cpu.ctx ≠ .main ∧ ∃ f, t.frame = some f ∧ f.lpm = true) := by
  cases h with
  | stay hframe hcpu =>
    rw [hcpu hlpm, hframe]
    exact .inl ⟨hctx, hlpm, hfree⟩
  | enter _ hctx' hframe hsaved => exact .inr ⟨hctx', _, hframe, hsaved.trans hlpm⟩
  | handle hne | leave hne => exact absurd hctx hne

/-- A saved low-power bit that is gone from the frame has been cleared by one of `ClearsSavedLpm`. -/
theorem LpmStep.savedCleared {f g : Saved} (h : LpmStep i s t) (hf : s.frame = some f) (hl : f.lpm = true)
    (hg : t.frame = some g) (hgl : g.lpm = false) : ClearsSavedLpm i s := by
  cases h with
  | stay hframe =>
    rw [hframe, hf] at hg
    cases hg
    simp [hl] at hgl
  | enter hfree => simp [hfree] at hf
  | handle _ hframe hsaved =>
    rw [hframe, hf, Option.map_some] at hg
    cases hg
    refine hsaved.resolve_left fun hkeep => ?_
    simp [hkeep, hl] at hgl
  | leave _ _ hfree => simp [hfree] at hg

/-- A return finds the main flow asleep as it was saved, or it is RF_RETURN with wake. -/
theorem LpmStep.savedRestored {f : Saved} (h : LpmStep i s t) (hf : s.frame = some f) (hl : f.lpm = true)
    (hfree : t.frame = none) : t.cpu.lpm = true ∨ i = .rfReturn true := by
  cases h with
  | stay hframe | handle _ hframe => simp [hframe, hf] at hfree
  | enter _ _ hframe => simp [hframe] at hfree
  | leave _ hframe _ hlpm =>
    rw [hframe] at hf
    cases hf
    exact hlpm.imp_left fun h => h.trans hl

/-! The other cause's flag. -/

/-- Two bodies that answer alike up to `f`, from states on which `f` hides a mark alike, lead to next states that are
alike up to `f`. -/
theorem State.mapNext_commit {f : State → State} {b b' : Except Stop State} (hb : b'.map f = b.map f)
    (hfault : ∀ r, f (t.raiseFault r) = f (s.raiseFault r)) (hrefuse : ∀ r, f (t.refuse r) = f (s.refuse r)) :
    mapNext f (t.commit b') = mapNext f (s.commit b) := by
  cases b with
  | ok u =>
    cases b' with
    | ok u' => exact congrArg Host.Outcome.next (Except.ok.inj hb)
    | error x => cases hb
  | error x =>
    cases b' with
    | ok u' => cases hb
    | error x' =>
      obtain rfl := Except.error.inj hb
      cases x' with
      | fault r => exact congrArg Host.Outcome.next (hfault r)
      | refuse r => exact congrArg Host.Outcome.next (hrefuse r)
      | halt g => rfl

theorem handlerGate_map {f : State → State} {x : Ctx} {e : Bool} {b b' : Except Stop State}
    (hctx : t.cpu.ctx = s.cpu.ctx) (hb : b'.map f = b.map f) :
    (handlerGate t x e b').map f = (handlerGate s x e b).map f := by
  by_cases h : s.cpu.ctx = x
  · rw [handlerGate_of_ctx h, handlerGate_of_ctx (hctx.trans h)]
    cases e with
    | true => exact hb
    | false => rfl
  · rw [handlerGate_wrongContext h, handlerGate_wrongContext (hctx ▸ h)]

/-- The AwaitingReference arm reads OVIFG for OVIFG's own value alone (41_sampling_sequencer R134). -/
theorem State.completeReference_clearOverflow (s : State) (d : Word) :
    (s.clearOverflow.completeReference d).map State.clearOverflow =
      (s.completeReference d).map State.clearOverflow := by
  cases hsc : s.conv.sc with
  | true =>
    rw [(State.completeReference_error (s := s)).mpr ⟨hsc, rfl⟩,
      (State.completeReference_error (s := s.clearOverflow)).mpr ⟨hsc, rfl⟩]
  | false =>
    rw [(State.completeReference_ok (s := s)).mpr ⟨hsc, rfl⟩,
      (State.completeReference_ok (s := s.clearOverflow)).mpr ⟨hsc, rfl⟩]
    rfl

theorem State.completeIdle_clearOverflow (s : State) :
    s.clearOverflow.completeIdle.map State.clearOverflow = s.completeIdle.map State.clearOverflow := by
  simp only [State.completeIdle, State.clearOverflow_cfg]
  cases s.cfg.idleCompletion <;> rfl

theorem State.completeArm_clearOverflow (s : State) (d : Word) :
    (s.clearOverflow.completeArm d).map State.clearOverflow = (s.completeArm d).map State.clearOverflow := by
  simp only [State.completeArm, State.clearOverflow_st]
  cases s.st with
  | idle => exact s.completeIdle_clearOverflow
  | awaitingReference => exact s.completeReference_clearOverflow d
  | awaitingThermistor | reserved => rfl

/-- ISR_COMPLETE's body is its arm with the frame then marked served (41_sampling_sequencer R133). -/
theorem State.serveComplete_eq (s : State) (d : Word) :
    s.serveComplete d =
      if s.serving .complete then (s.completeArm d).map State.markServed else .error (.refuse .wrongContext) := by
  unfold State.serveComplete
  cases s.completeArm d <;> rfl

theorem map_markServed_clearOverflow (b : Except Stop State) :
    (b.map State.markServed).map State.clearOverflow = (b.map State.clearOverflow).map State.markServed := by
  cases b <;> rfl

theorem State.serveComplete_clearOverflow (s : State) (d : Word) :
    (s.clearOverflow.serveComplete d).map State.clearOverflow = (s.serveComplete d).map State.clearOverflow := by
  have hserving : s.clearOverflow.serving .complete = s.serving .complete := rfl
  rw [State.serveComplete_eq, State.serveComplete_eq, hserving]
  cases s.serving .complete with
  | true =>
    simp only [if_true, map_markServed_clearOverflow]
    rw [State.completeArm_clearOverflow]
  | false => rfl

theorem State.serveOverflow_clearIfg (s : State) :
    s.clearIfg.serveOverflow.map State.clearIfg = s.serveOverflow.map State.clearIfg := by
  have hserving : s.clearIfg.serving .overflow = s.serving .overflow := rfl
  simp only [State.serveOverflow, hserving]
  cases s.serving .overflow <;> rfl

/-- A handler's operation whose body does not see a change of the state, up to that change, does not see it. -/
theorem mapNext_exec_of_body {f : State → State} (hi : i ≠ .reset) (hm : (f s).marked = s.marked)
    (hb : (opBody i (f s)).map f = (opBody i s).map f) (hfault : ∀ r, f ((f s).raiseFault r) = f (s.raiseFault r))
    (hrefuse : ∀ r, f ((f s).refuse r) = f (s.refuse r)) : mapNext f (exec i (f s)) = mapNext f (exec i s) := by
  rw [exec_eq hi, exec_eq hi, hm]
  cases s.marked with
  | true => rfl
  | false => exact State.mapNext_commit hb hfault hrefuse

/-- ISR_COMPLETE does not see OVIFG (60_exceptions R210). -/
theorem exec_isrComplete_clearOverflow (d : Word) (s : State) :
    mapNext State.clearOverflow (exec (.isrComplete d) s.clearOverflow) =
      mapNext State.clearOverflow (exec (.isrComplete d) s) :=
  mapNext_exec_of_body nofun rfl (handlerGate_map rfl (s.serveComplete_clearOverflow d)) (fun _ => rfl) fun _ => rfl

/-- ISR_OVERFLOW does not see IFG (60_exceptions R210). -/
theorem exec_isrOverflow_clearIfg (s : State) :
    mapNext State.clearIfg (exec .isrOverflow s.clearIfg) = mapNext State.clearIfg (exec .isrOverflow s) :=
  mapNext_exec_of_body nofun rfl (handlerGate_map rfl s.serveOverflow_clearIfg) (fun _ => rfl) fun _ => rfl

end Sys2Proof.Machine
end

section
/-! PROOFS. The exceptions' obligations: the marks, the converter interrupt's entry and return, the two causes, and how a
sleeping main flow resumes (60_exceptions). -/

namespace Sys2Proof.Proofs

open Sys2Proof Sys2Proof.Machine

/-- Settles O12: every other operation first looks at the marks, and RESET's state has none. -/
theorem markedStateStepsOnlyByReset : Obligations.MarkedStateStepsOnlyByReset :=
  fun s hs => ⟨fun _ hi => noStep_of_marked hi (marked_of_not_unmarked hs),
    fun hr => ⟨_, exec_reset s, State.afterReset_unmarked hr⟩⟩

/-- Settles O13: a body that completes sets no mark, and one that does not discards its writes. -/
theorem markingWritesOnlyTheMark : Obligations.MarkingWritesOnlyTheMark := by
  intro i s t hx hmark
  obtain hb | ⟨r, rfl⟩ | ⟨r, rfl⟩ := exec_cases hx
  · obtain hsame | ⟨hf, hr⟩ | ht := opBody_marks hb
    · rw [hsame] at hmark
      exact hmark.elim (fun ⟨h, hn⟩ => absurd h hn) fun ⟨h, hn⟩ => absurd h hn
    · exact hmark.elim (fun ⟨_, hn⟩ => absurd hf hn) fun ⟨_, hn⟩ => absurd hr hn
    · exact ht
  · rfl
  · rfl

/-- Settles O40: the entry waits for an open entry and its own cause, and its body always completes. -/
theorem convIrqEntrySavesFrame : Obligations.ConvIrqEntrySavesFrame := by
  refine ⟨rfl, rfl, fun c s => ⟨fun h => ?_, fun hs hc => ?_⟩⟩
  · refine noStep_of_gate (i := .convIrqEntry c) nofun rfl fun ⟨hm, hg⟩ => h ?_
    obtain ⟨ho, hc⟩ := Bool.and_eq_true_iff.mp hg
    exact ⟨entryReady_iff.mpr ⟨hm, ho⟩, inCauses_iff.mpr hc⟩
  · obtain ⟨hm, ho⟩ := entryReady_iff.mp hs
    have hg : (s.entryOpen && s.conv.hasCause c) = true := Bool.and_eq_true_iff.mpr ⟨ho, inCauses_iff.mp hc⟩
    obtain ⟨hx, hf⟩ := exec_of_gate_ok (i := .convIrqEntry c) nofun rfl hm hg rfl
    exact ⟨_, hx, rfl, rfl, hf.narrow (by simp [writes])⟩

/-- Settles O41: the body restores a served frame's bits, and refuses an unserved one. -/
theorem retiRestoresSavedBits : Obligations.RetiRestoresSavedBits := by
  refine ⟨rfl, fun s f hs hframe => ⟨fun hserved => ?_, fun hserved => ?_⟩⟩
  · have hok := State.returnServed_ok.mpr ⟨f, hframe, hserved, rfl⟩
    obtain ⟨hx, hf⟩ := exec_of_handlerReady (i := .reti) nofun rfl hs rfl hok
    exact ⟨_, hx, rfl, rfl, hf.narrow (by simp [writes])⟩
  · have hrefuse : s.returnServed = .error (.refuse .wrongContext) := by simp [State.returnServed, hframe, hserved]
    exact refused_of_handlerReady (i := .reti) nofun rfl hs rfl hrefuse

/-- Settles O55: two states that differ in the other cause's flag are one state with that flag cleared, and neither
service sees that it is. -/
theorem causeServicesDoNotInterfere : Obligations.CauseServicesDoNotInterfere := by
  refine fun s b => ⟨fun d => ?_, ?_⟩
  · exact (exec_isrComplete_clearOverflow d { s with conv := { s.conv with ovifg := b } }).symm.trans
      (exec_isrComplete_clearOverflow d s)
  · exact (exec_isrOverflow_clearIfg { s with conv := { s.conv with ifg := b } }).symm.trans (exec_isrOverflow_clearIfg s)

/-- Settles O56, from what each operation does to the low-power bit. -/
theorem savedLpmClearedOnlyByWake : Obligations.SavedLpmClearedOnlyByWake :=
  ⟨fun _ _ _ hx hi => (LpmStep.of_exec hi hx).asleep, fun _ _ _ _ hx hi hf hl =>
    ⟨fun _ => (LpmStep.of_exec hi hx).savedCleared hf hl, (LpmStep.of_exec hi hx).savedRestored hf hl⟩⟩

end Sys2Proof.Proofs
end

section
/-! SUPPORT. RESET: what a well-formed table image is, the reason each failed check reports, and that no reply word reads
as written after it (70_reset_and_hazards R240); and the operations with no step while the main flow sleeps with nothing
pending (R248, R256). -/

namespace Sys2Proof

variable {c : Config}

/-- The image's checks leave one entry between two keys: some identifier other than the key, with the configured handler's
address (30_encoding R79, R80). -/
theorem Config.imageWellFormed_iff :
    c.imageWellFormed = true ↔
      ∃ id, c.dtImage = [c.dtKey, id, c.handlerAddr, c.dtKey] ∧ id ≠ c.dtKey ∧ 1 ≤ c.dtMax := by
  constructor
  · intro h
    have hlen : c.dtImage.length = 4 := by
      simp only [Config.imageWellFormed, Bool.and_eq_true, decide_eq_true_eq, and_assoc] at h
      exact h.1
    obtain ⟨k, id, a, k', hi⟩ : ∃ k id a k', c.dtImage = [k, id, a, k'] :=
      match c.dtImage, hlen with
      | [k, id, a, k'], _ => ⟨k, id, a, k', rfl⟩
    simp [Config.imageWellFormed, Config.commandIds, Config.handlerAddrs, hi] at h
    obtain ⟨⟨⟨⟨hk, hk'⟩, hid⟩, hmax⟩, ha⟩ := h
    exact ⟨id, by rw [hi, hk, hk', ha], hid, hmax⟩
  · rintro ⟨id, hi, hid, hmax⟩
    simp [Config.imageWellFormed, Config.commandIds, Config.handlerAddrs, hi, hid, hmax]

/-! The first check that fails names the reason (70_reset_and_hazards R240, 60_exceptions R211). -/

theorem Config.refusal_illFormedTable (h : c.imageWellFormed = false) : c.refusal = some .illFormedTable := by
  simp [Config.refusal, h]

theorem Config.refusal_misaligned (hi : c.imageWellFormed = true)
    (h : c.dtBase.toNat % 2 = 1 ∨ c.replyBase.toNat % 2 = 1) : c.refusal = some .misaligned := by
  have ha : c.aligned = false := by simp [Config.aligned]; omega
  simp [Config.refusal, hi, ha]

theorem Config.aligned_of_even (hd : c.dtBase.toNat % 2 = 0) (hr : c.replyBase.toNat % 2 = 0) : c.aligned = true := by
  simp [Config.aligned, hd, hr]

theorem Config.refusal_addressWrap (hi : c.imageWellFormed = true) (ha : c.aligned = true)
    (h : 65536 < c.dtBase.toNat + 8 ∨ 65536 < c.replyBase.toNat + 4) : c.refusal = some .addressWrap := by
  have hw : c.inRange = false := by simp [Config.inRange, Config.tableEnd, Config.replyEnd]; omega
  simp [Config.refusal, hi, ha, hw]

theorem Config.refusal_overlap (hi : c.imageWellFormed = true) (ha : c.aligned = true)
    (hd : c.dtBase.toNat + 8 ≤ 65536) (hr : c.replyBase.toNat + 4 ≤ 65536)
    (h0 : c.replyBase.toNat < c.dtBase.toNat + 8) (h1 : c.dtBase.toNat < c.replyBase.toNat + 4) :
    c.refusal = some .overlap := by
  have hw : c.inRange = true := by simp [Config.inRange, Config.tableEnd, Config.replyEnd, hd, hr]
  have ho : c.disjoint = false :=
    Bool.or_eq_false_iff.mpr ⟨decide_eq_false (Nat.not_le.mpr h0), decide_eq_false (Nat.not_le.mpr h1)⟩
  simp [Config.refusal, hi, ha, hw, ho]

/-- The checks of the configuration of State.reset (log 5). -/
theorem Config.chip_checked : Config.chip.refusal = none ∧ Config.chip.fits = true := by
  obtain ⟨hr, hf⟩ := Bool.and_eq_true_iff.mp Config.chip_runs
  exact ⟨of_decide_eq_true hr, hf⟩

namespace Machine

variable {s : State} {i : Instr}

/-! RESET. -/

/-- RESET of a configuration that fails a check sets the refusal mark alone; a fault mark stays (log 17). -/
theorem refused_reset {r : RefusalReason} (hr : s.cfg.refusal = some r) (hm : s.marks.refused = none) :
    Refused s r (exec .reset s) := by
  rw [Refused, exec_reset, State.afterReset_refused hr, State.refuse, hm]
  rfl

/-- With nothing written, an address outside the table region holds nothing (log 8). -/
theorem State.readByte_empty (hm : s.mem = []) {a : Nat} (h : s.cfg.inTable a = false) : s.readByte a = none := by
  rw [State.readByte, hm]
  exact imageByte_outside h

/-- With nothing written, both reply words of a checked configuration are unwritten (10_state R45). -/
theorem State.reply_empty (h : s.cfg.refusal = none) (hm : s.mem = []) : s.reply = ⟨none, none⟩ := by
  have empty : ∀ a, s.cfg.replyBase.toNat ≤ a → a < s.cfg.replyBase.toNat + 4 → s.readByte a = none := fun a h0 h1 =>
    State.readByte_empty hm (Config.reply_outside_table h h0 h1)
  simp [State.reply, State.wordAt, empty s.cfg.replyBase.toNat (by omega) (by omega),
    empty (s.cfg.replyBase.toNat + 2) (by omega) (by omega)]

/-! The sleeping main flow. -/

theorem not_enabled_of_noStep (h : NoStep (exec i s)) : ¬ Enabled i s := fun ⟨t, hx, _⟩ => h t hx

/-- A handler's operation is not enabled in another context: a refusal is no step of a run (30_encoding R83). -/
theorem not_enabled_of_wrongContext {x : Ctx} (hi : handlerCtx i = some x) (hx : s.cpu.ctx ≠ x) : ¬ Enabled i s := by
  rintro ⟨t, ht, hr⟩
  obtain ⟨e, b, hb⟩ := opBody_handler hi s
  rw [handlerGate_wrongContext hx] at hb
  obtain ⟨-, hok | ⟨r, herr, -⟩ | ⟨r, -, rfl⟩⟩ := exec_next (by rintro rfl; cases hi) ht
  · simp [hb] at hok
  · simp [hb] at herr
  · simp at hr

/-- An operation of agent `software` waits for a running software context (40_converter_control R102 to R105). -/
theorem opBody_software (ha : i.agent = .software) (s : State) : ∃ b, opBody i s = gate s.softwareRuns b := by
  cases i with
  | cfgStart | convDisable | resultRead | ovClear => exact ⟨_, rfl⟩
  | _ => cases ha

/-- An operation of the two handlers' agents is an interrupt's entry or stands in that handler's body (30_encoding R72). -/
theorem entry_or_handler (ha : i.agent = .convISR ∨ i.agent = .rfStack) :
    (∃ c, i = .convIrqEntry c) ∨ i = .rfIrqEntry ∨ ∃ x, handlerCtx i = some x ∧ x ≠ .main := by
  cases i with
  | convIrqEntry c => exact .inl ⟨c, rfl⟩
  | rfIrqEntry => exact .inr (.inl rfl)
  | isrComplete | isrOverflow | reti | wake => exact .inr (.inr ⟨.convISR, rfl, nofun⟩)
  | dtLookup | dtInvoke | customStart | customFinish | replyWrite | rfReturn => exact .inr (.inr ⟨.rfISR, rfl, nofun⟩)
  | _ => exact ha.elim nofun nofun

theorem not_softwareReady_of_asleep (hx : s.cpu.ctx = .main) (hl : s.cpu.lpm = true) : ¬ SoftwareReady s := by
  rintro (⟨-, hne⟩ | hmain)
  · exact hne hx
  · simp [hmain.awake] at hl

/-- With neither flag set the converter interrupt has no cause (40_converter_control R106). -/
theorem noStep_convIrqEntry_of_noFlag (hf : s.conv.ifg = false) (ho : s.conv.ovifg = false) (c : Cause) :
    NoStep (exec (.convIrqEntry c) s) := by
  refine noStep_of_gate (i := .convIrqEntry c) nofun rfl fun ⟨_, hg⟩ => ?_
  have hc := inCauses_iff.mpr (Bool.and_eq_true_iff.mp hg).2
  cases c <;> simp [InCauses, hf, ho] at hc

/-- With no command pending the RF interrupt is not requested (60_exceptions R203). -/
theorem noStep_rfIrqEntry_of_notPending (hp : s.rf.pending = none) : NoStep (exec .rfIrqEntry s) :=
  noStep_of_gate (i := .rfIrqEntry) nofun rfl fun ⟨_, hg⟩ => by simp [State.rfPending, hp] at hg

end Machine

end Sys2Proof
end

section
/-! PROOFS. Reset's obligations and the lost wake (70_reset_and_hazards). -/

namespace Sys2Proof.Proofs

open Sys2Proof Sys2Proof.Machine

/-- Settles O51: under a checked configuration RESET gives `State.atReset` with the schedule and the outputs as before. -/
theorem resetRestoresEveryComponent : Obligations.ResetRestoresEveryComponent := by
  intro s h
  have hf := (frame_afterReset s).parts
  have hx := exec_reset s
  rw [State.afterReset_runs h] at hf hx
  exact ⟨_, hx, rfl, rfl, rfl, rfl, rfl, rfl, rfl, rfl, rfl, rfl, rfl, rfl, rfl, State.reply_empty h rfl, rfl, hf⟩

/-- Settles O52, from the reason each failed check reports; an image that passes is one entry between two keys. -/
theorem resetChecksConfiguration : Obligations.ResetChecksConfiguration := by
  intro s hm
  refine ⟨fun hbad => ?_, fun hi hodd => ?_, fun hi hd hr hwrap => ?_, fun hi hd hr hdw hrw h0 h1 => ?_⟩
  · refine refused_reset (Config.refusal_illFormedTable (Bool.eq_false_iff.mpr fun hi => ?_)) hm
    obtain ⟨id, himage, hid, hmax⟩ := Config.imageWellFormed_iff.mp hi
    simp [himage, hid, Nat.not_lt.mpr hmax] at hbad
  · exact refused_reset (Config.refusal_misaligned hi hodd) hm
  · exact refused_reset (Config.refusal_addressWrap hi (Config.aligned_of_even hd hr) hwrap) hm
  · exact refused_reset (Config.refusal_overlap hi (Config.aligned_of_even hd hr) hdw hrw h0 h1) hm

/-- Settles O59, agent by agent: the main flow sleeps, so no software runs; the converter is disabled; no interrupt is
requested; and a handler's operation is refused. -/
theorem lostWakeIsStuck : Obligations.LostWakeIsStuck := by
  intro s hctx hlpm hdone hen hifg hovifg hpending
  refine ⟨fun hfinal => by simp [hfinal.ended] at hdone, fun i _ hhost => ?_⟩
  have handlers (ha : i.agent = .convISR ∨ i.agent = .rfStack) : ¬ Enabled i s := by
    obtain ⟨c, rfl⟩ | rfl | ⟨x, hi, hx⟩ := entry_or_handler ha
    · exact not_enabled_of_noStep (noStep_convIrqEntry_of_noFlag hifg hovifg c)
    · exact not_enabled_of_noStep (noStep_rfIrqEntry_of_notPending hpending)
    · exact not_enabled_of_wrongContext hi fun h => hx (h.symm.trans hctx)
  cases ha : i.agent with
  | main => exact not_enabled_of_noStep (noStep_of_mainAway ha (.inr hlpm))
  | software =>
    obtain ⟨b, hb⟩ := opBody_software ha s
    exact not_enabled_of_noStep
      (noStep_of_noSoftware (by rintro rfl; cases ha) hb (not_softwareReady_of_asleep hctx hlpm))
  | converter => exact not_enabled_of_noStep (noStep_of_converterDisabled ha hen)
  | convISR => exact handlers (.inl ha)
  | rfStack => exact handlers (.inr ha)
  | host => exact absurd ha hhost

/-- Settles O6: the drawn widths are cut to the configuration's, which passes its checks; EN and gie are clear. -/
theorem powerUpState : Obligations.PowerUpState := by
  obtain ⟨hrefusal, hfits⟩ := Config.chip_checked
  obtain ⟨hgain, hfdly, hclk⟩ := (inv_atReset Config.chip 0).fieldsFit hfits
  refine ⟨⟨⟨rfl, rfl⟩, rfl, rfl, rfl, rfl⟩, rfl, rfl, rfl, rfl, rfl, State.reply_empty hrefusal rfl, hrefusal, hfits,
    _, _, _, _, _, rfl, hgain, hfdly, hclk, fun i ha => noStep_of_converterDisabled ha rfl, fun c => ?_⟩
  exact noStep_of_entryClosed (i := .convIrqEntry c) nofun rfl (.inr rfl)

/-- Settles O7: the invariant holds after a reset under every configuration. -/
theorem resetStateHasInv : Obligations.ResetStateHasInv := inv_atReset Config.chip 0

end Sys2Proof.Proofs
end
